-- ==== Sys2Proof/Word.lean ====
section
/-!
DEFINITION. The words of the block: 16-bit command words (R70), 8-bit rows, frame-buffer bytes and ROM
entries (R52), and a grid of bytes, the one shape its two writable storages have.
-/

namespace Sys2Proof

/-- A command word, bit 15 the most significant (R70). -/
abbrev Word := BitVec 16

/-- One board row, one frame-buffer byte or one shape mask; every storage access moves 8 bits (R52). -/
abbrev Byte := BitVec 8

/-- A storage of `n` bytes. Bit `b` of byte `i` is one cell or one pixel (R22, R28). -/
abbrev Grid (n : Nat) := Vector Byte n

end Sys2Proof
end

