-- ==== Sys2Proof/Config.lean ====
section
/-!
DEFINITION. The block's parameters (R8): the values the spec decided, the OPEN parameters as constants with no body,
and the source of the values the spec leaves unspecified. The sizes R8 fixes (8 columns, 16 rows, 20 columns of 8
pixels, 32 ids) stand in the types of the storages.
-/

namespace Sys2Proof.Config

/-- `INIT_POLICY` (R171; D20). -/
inductive InitPolicy where
  /-- The first FLUSH after reset sends the initialization sequence. -/
  | once
  /-- Every FLUSH sends it. -/
  | everyFlush
  deriving DecidableEq, Repr

/-- `PREVIEW_POS`, row 17, column 3: a convention of the host's software, which the block does not treat as
special (R8, R121; D16). -/
def previewPos : BitVec 8 := 0x8B#8

/-- `SPAWN_POS`, an OPEN constant of the host's software (R8; D32). The block does not use it. -/
opaque spawnPos : BitVec 8

/-- `SHAPE_ROM`, OPEN: the spec gives none of its 32 values (R31; D7). No value can be proved of it. -/
opaque shapeRom : Vector Byte 32

/-- `INIT_SEQ`, OPEN: the bytes of the initialization sequence (R171; D20). -/
opaque initSeq : List Byte

/-- `INIT_POLICY`, decided ONCE (R171; D20). -/
def initPolicy : InitPolicy := .once

/-- `SCORE_WIDTH`, decided 16 (R8, R25; D10). -/
def scoreWidth : Nat := 16

/-- The source of FREE VALUES: the k-th byte the machine draws where the spec gives none (FB at reset, R27;
BOARD after COMMIT_PRECONDITION, R223). Log entries 1 and 2. -/
opaque freeByte : Nat → Byte

/-- The parameters a block is built with. No command writes them and reset does not change them (R31, R253).
They are data, so that a statement about every state speaks of every ROM, every width of SCORE, every initialization
sequence and both policies (D7: a claim must quantify over, or name, the ROM). Log entries 3 and 5. -/
structure Params where
  /-- `SHAPE_ROM`: 32 masks, indexed by the 5-bit piece-definition id (R31). -/
  shapeRom : Vector Byte 32
  /-- `SCORE_WIDTH`: how many bits SCORE has (R8, R25, R40). -/
  scoreWidth : Nat
  /-- `INIT_SEQ` (R171). -/
  initSeq : List Byte
  /-- `INIT_POLICY` (R171). -/
  initPolicy : InitPolicy
  deriving DecidableEq, Repr

/-- The parameters of the hardware: OPEN values open, decided values as decided. -/
def params : Params :=
  { shapeRom := shapeRom, scoreWidth := scoreWidth, initSeq := initSeq, initPolicy := initPolicy }

end Sys2Proof.Config
end

