-- ==== Sys2Proof/Machine/Operands.lean ====
section
/-!
DEFINITION. Operand forms: a piece-definition id as shape and orientation, a position as column and row, a mask as
the cells of the one geometry walk (R100 to R105).
-/

namespace Sys2Proof.Machine

/-- The shape of an id, `id[4:2]` (R100). -/
def idShape (id : BitVec 5) : BitVec 3 := id.extractLsb' 2 3

/-- The orientation of an id, `id[1:0]` (R100). -/
def idOrient (id : BitVec 5) : BitVec 2 := id.extractLsb' 0 2

/-- The id of a shape and an orientation (R91, R100). -/
def idOf (shape : BitVec 3) (orient : BitVec 2) : BitVec 5 := shape ++ orient

/-- The column of a position, `pos[2:0]` (R103), as a number: coordinates do not wrap (R11, R104). -/
def posCol (pos : BitVec 8) : Nat := (pos.extractLsb' 0 3).toNat

/-- The row of a position, `pos[7:3]` (R103). -/
def posRow (pos : BitVec 8) : Nat := (pos.extractLsb' 3 5).toNat

/-- The position of a column and a row, `8 * row + col` (R91, R103). -/
def posOf (row : BitVec 5) (col : BitVec 3) : BitVec 8 := row ++ col

/-- Walk step `k` reads mask bit `7 - k` (R102). -/
def maskBit (mask : Byte) (k : Nat) : Bool := mask.getLsbD (7 - k)

/-- The geometry offset `(dx, dy)` of walk step `k` (R102). -/
def stepOffset (k : Nat) : Nat × Nat := (k % 3, k / 3)

/-- The cell `(c, r)` of walk step `k`, without wrap-around (R104). -/
def stepCell (pos : BitVec 8) (k : Nat) : Nat × Nat :=
  (posCol pos + (stepOffset k).1, posRow pos + (stepOffset k).2)

/-- The walk's list of cells `(c, r)`, in order of `k` (R104). CHECK, COMMIT and DRAW all use it (R105). -/
def cells (mask : Byte) (pos : BitVec 8) : List (Nat × Nat) :=
  ((List.range 8).filter (maskBit mask)).map (stepCell pos)

end Sys2Proof.Machine
end

