-- ==== Sys2Proof/Machine/State.lean ====
section
/-!
DEFINITION. The machine's state (R40) with its output history (R34), its parameters (R31, R171), the host's side of
its ports (R32, R33), and the counter of free draws; the stop reasons; the state after reset (R251).
-/

namespace Sys2Proof.Machine

/-- `BOARD`: `ROWS` = 16 rows of 8 bits, row 0 the top, bit c of a row column c (R21, R22). -/
abbrev Board := Grid 16

/-- `FB`: `FB_BYTES` = 20 bytes, byte x display column x, bit y of it pixel row y, topmost first (R27, R28). -/
abbrev FrameBuffer := Grid 20

/-- `FAULT_CAUSE`: the four values of the 2-bit register (R30, R220). -/
inductive FaultCause where
  /-- 0 NONE. -/
  | noFault
  /-- 1 ILLEGAL_COMMAND. -/
  | illegalCommand
  /-- 2 COMMIT_PRECONDITION. -/
  | commitPrecondition
  /-- 3 DRAW_RANGE. -/
  | drawRange
  deriving DecidableEq, Repr

/-- The kind of a sink byte (R34): command (dc = 0) or data (dc = 1). -/
inductive SinkTag where
  | command
  | data
  deriving DecidableEq, Repr

/-- One event of the sink port, `(dc, b)` (R34). -/
structure SinkEvent where
  tag : SinkTag
  byte : Byte
  deriving DecidableEq, Repr

/-- What the outside can do to the block: issue a command word (R32), read the observation port (R33), reset it
(R250). -/
inductive HostAction where
  | command (w : Word)
  | observe (a : BitVec 6)
  | reset
  deriving DecidableEq, Repr

/-- The machine. The first eight fields are the block's complete state (R40). -/
structure State where
  /-- `BOARD` (R21). -/
  board : Board
  /-- `SCORE`, the counter of cleared lines (R25). It has `params.scoreWidth` bits: the invariant `Safety.scoreFits`.
  Log entry 5. -/
  score : Nat
  /-- `OK` (R26). -/
  ok : Bool
  /-- `LINES` (R36). -/
  lines : BitVec 5
  /-- `FB` (R27). -/
  fb : FrameBuffer
  /-- `INIT_SENT` (R29). -/
  initSent : Bool
  /-- `FAULT_CAUSE` (R30). -/
  faultCause : FaultCause
  /-- `FAULT_CMD` (R30). -/
  faultCmd : Word
  /-- The sink trace, oldest event first (R34). -/
  trace : List SinkEvent
  /-- `SHAPE_ROM`, `SCORE_WIDTH`, `INIT_SEQ`, `INIT_POLICY`: constant (R31, R40, R253). -/
  params : Config.Params
  /-- MODEL'S OWN: what the host has yet to do, next first. The block fetches nothing (R35); each step takes one. -/
  port : List HostAction
  /-- MODEL'S OWN: the bytes the observation port has answered, oldest first. -/
  replies : List Byte
  /-- MODEL'S OWN: how many free bytes have been drawn. -/
  draws : Nat
  deriving DecidableEq, Repr

/-- A step never faults: each fault of the spec is an entry into the halted state, which is a next state (R222).
So this type has no value. -/
inductive Fault where
  deriving DecidableEq, Repr

/-- Why a step is refused. No arm of exec is refused. -/
inductive Refusal where
  /-- Raised by exec's arm for an instruction that has no meaning yet; safe. No arm raises it now. -/
  | notModelled (mnemonic : String)
  deriving DecidableEq, Repr

/-- `n` bytes the spec gives no value, drawn after the first `k` (log entries 1 and 2). -/
def drawGrid (n k : Nat) : Grid n := Vector.ofFn fun i => Config.freeByte (k + i.val)

/-- The machine right after reset (R251). Nothing is pending on the ports (R252); FB is a free draw (R27). -/
def State.reset : State where
  board := Vector.replicate 16 0x00#8
  score := 0
  ok := false
  lines := 0
  fb := drawGrid 20 0
  initSent := false
  faultCause := .noFault
  faultCmd := 0x0000#16
  trace := []
  params := Config.params
  port := []
  replies := []
  draws := 20

end Sys2Proof.Machine
end

