-- ==== Sys2Proof/Machine/Ops.lean ====
section
/-!
DEFINITION. The named operations over the state and its storages: one setter per field, the reads and writes of a
bit of a grid, the ROM lookup, the bits of SCORE, the sink, entering the halted state (R222), and reset, its only exit (R226, R250).
-/

namespace Sys2Proof.Machine

def State.setBoard (s : State) (b : Board) : State := { s with board := b }
def State.setScore (s : State) (v : Nat) : State := { s with score := v }
def State.setOk (s : State) (v : Bool) : State := { s with ok := v }
def State.setLines (s : State) (v : BitVec 5) : State := { s with lines := v }
def State.setFb (s : State) (f : FrameBuffer) : State := { s with fb := f }
def State.setInitSent (s : State) (v : Bool) : State := { s with initSent := v }
def State.setFault (s : State) (c : FaultCause) (w : Word) : State := { s with faultCause := c, faultCmd := w }
def State.setTrace (s : State) (t : List SinkEvent) : State := { s with trace := t }
def State.setPort (s : State) (p : List HostAction) : State := { s with port := p }
def State.setReplies (s : State) (r : List Byte) : State := { s with replies := r }
def State.setDraws (s : State) (n : Nat) : State := { s with draws := n }

/-- `ROM(id)`, the mask of a piece definition (R31, R101). -/
def State.rom (s : State) (id : BitVec 5) : Byte := s.params.shapeRom[id.toNat]'id.isLt

/-- SCORE as the register of SCORE_WIDTH bits that a reader of it sees (R25, R33). -/
def State.scoreBits (s : State) : BitVec s.params.scoreWidth := BitVec.ofNat s.params.scoreWidth s.score

/-- The block is halted while FAULT_CAUSE is not NONE (R30, R202). -/
def State.halted (s : State) : Bool := s.faultCause != .noFault

/-- Bit `b` of byte `i`, where the storage has that byte and that bit (R22, R28). -/
def gridBit {n : Nat} (g : Grid n) (i b : Nat) : Bool :=
  if h : i < n then g[i].getLsbD b else false

/-- `G[i] <- G[i] | (1 << b)`: the write of COMMIT (R116) and the cell-draw primitive (R161), a read-modify-write of
one byte (R52). Its users call it in range only. -/
def lightBit {n : Nat} (g : Grid n) (i b : Nat) : Grid n :=
  if h : i < n then g.set i (g[i] ||| (1#8 <<< b)) else g

/-- Write every cell `(c, r)` of a walk: bit `c` of byte `r`, in a board row (R116) or a display column (R118). -/
def lightCells {n : Nat} (cs : List (Nat × Nat)) (g : Grid n) : Grid n :=
  cs.foldl (fun g cell => lightBit g cell.2 cell.1) g

/-- Append events to the sink trace, in order (R10, R34). -/
def State.emit (s : State) (es : List SinkEvent) : State := s.setTrace (s.trace ++ es)

/-- `raise F(w)`: record the cause and the word; the command ends and the block is halted (R222). Nothing else is
saved. There is no return (R226). -/
def raiseFault (cause : FaultCause) (w : Word) (s : State) : State := s.setFault cause w

/-- BOARD gets values the spec does not give: a COMMIT that breaks its precondition has no defined result (R115,
R223). Log entry 2. -/
def drawBoard (s : State) : State :=
  (s.setBoard (drawGrid 16 s.draws)).setDraws (s.draws + 16)

/-- Reset of the block: every element of its state to its reset value at once, FB a fresh free draw, the sink trace
empty (R250, R251); the parameters do not change (R253). The host's side stays: what it has yet to do and what it has
read. -/
def resetBlock (s : State) : State :=
  { State.reset with
    fb := drawGrid 20 s.draws
    draws := s.draws + 20
    params := s.params
    port := s.port
    replies := s.replies }

end Sys2Proof.Machine
end

