-- ==== Sys2Proof/Machine/Flags.lean ====
section
/-!
DEFINITION. The status computations: the legality predicate behind OK (R109), the draw range test (R119), the
saturating SCORE increment (R11), the codes of FAULT_CAUSE (R30) and of the sink's tag (R34), and STATUS (R37).
-/

namespace Sys2Proof.Machine

/-- A cell is free when it lies on the board and is not occupied; the board is never read off its edge (R110, R111). -/
def cellFree (b : Board) (cell : Nat × Nat) : Bool :=
  decide (cell.1 < 8) && decide (cell.2 < 16) && !gridBit b cell.2 cell.1

/-- `legal(mask, pos, BOARD)` (R109). -/
def legal (mask : Byte) (pos : BitVec 8) (b : Board) : Bool := (cells mask pos).all (cellFree b)

/-- A pixel `(x, y)` exists in the buffer (R119, R163). -/
def pixelInRange (x y : Nat) : Bool := decide (x < 20) && decide (y < 8)

/-- Every cell of a piece is in range for DRAW: cell `(c, r)` is pixel `(r, c)` (R118, R119). -/
def drawInRange (mask : Byte) (pos : BitVec 8) : Bool :=
  (cells mask pos).all fun cell => pixelInRange cell.2 cell.1

/-- `sat_inc_W(v)` (R11): SCORE never wraps (R143). -/
def satInc (w v : Nat) : Nat := if v < 2 ^ w - 1 then v + 1 else v

/-- The code of a fault cause (R30, R220). -/
def FaultCause.code : FaultCause → BitVec 2
  | .noFault => 0
  | .illegalCommand => 1
  | .commitPrecondition => 2
  | .drawRange => 3

/-- The `dc` of a tag: 0 command, 1 data (R34). -/
def SinkTag.dc : SinkTag → BitVec 1
  | .command => 0
  | .data => 1

/-- `STATUS`: OK in bit 0, LINES in bits 5:1, FAULT_CAUSE in bits 7:6; no register of its own (R37). -/
def State.status (s : State) : Byte := s.faultCause.code ++ s.lines ++ BitVec.ofBool s.ok

end Sys2Proof.Machine
end

