-- ==== Sys2Proof/Machine/LineClear.lean ====
section
/-!
DEFINITION. The line-clear sweep: SWEEP (41_line_clear.md), as the loop of R142.
-/

namespace Sys2Proof.Machine

/-- A row is full: an 8-input AND of its bits (R140). -/
def rowFull (row : Byte) : Bool := row == 0xFF#8

/-- `for k = r downto 1: BOARD[k] <- BOARD[k - 1]`, then `BOARD[0] <- 0x00` (R142, R145). -/
def shiftDown (b : Board) : Nat → Board
  | 0 => b.set 0 0x00#8
  | k + 1 => shiftDown (if h : k + 1 < 16 then b.set (k + 1) b[k] else b) k

/-- What the loop of R142 carries: BOARD, SCORE, the count of lines. -/
structure SweepAcc where
  board : Board
  score : Nat
  lines : Nat
  deriving DecidableEq, Repr

/-- Clear the full row `r`: count it, in a SCORE of `w` bits, then shift (R142, R143). -/
def clearRow (w r : Nat) (a : SweepAcc) : SweepAcc :=
  { board := shiftDown a.board r, score := satInc w a.score, lines := a.lines + 1 }

/-- The loop of R142 from row index `r`: a full row is cleared and the same index tested again (R141); else the
index moves up, and the loop ends at row 0. `w` is SCORE_WIDTH; the next argument bounds the number of tests. -/
def sweepLoop (w : Nat) : Nat → Nat → SweepAcc → SweepAcc
  | 0, _, a => a
  | n + 1, r, a =>
    if rowFull (if h : r < 16 then a.board[r] else 0x00#8) then sweepLoop w n r (clearRow w r a)
    else
      match r with
      | 0 => a
      | r + 1 => sweepLoop w n r a

/-- "The loop runs at most 16 + 16 tests" (R146). -/
def sweepTests : Nat := 16 + 16

/-- SWEEP: clear the full rows from row 15 up, count them in LINES and SCORE (R142 to R144). -/
def execSweep (s : State) : Host.Outcome State Fault Refusal :=
  let a := sweepLoop s.params.scoreWidth sweepTests 15 { board := s.board, score := s.score, lines := 0 }
  .next (((s.setBoard a.board).setScore a.score).setLines (BitVec.ofNat 5 a.lines))

end Sys2Proof.Machine
end

