-- ==== Sys2Proof/Syntax.lean ====
section
/-!
DEFINITION. The ten commands the block accepts (R76), one constructor per row of spec/opcode_table.json.
-/

namespace Sys2Proof

/-- A command. Operand types are the encoding's own fields, so every value of a field is an operand, and none
else (R74, R75): any ID, any POS, any X from 0 to 31, any Y. -/
inductive Instr where
  /-- NOP, format S (R200). -/
  | nop
  /-- GAME_CLEAR, format S (R108). -/
  | gameClear
  /-- FB_CLEAR, format S (R162). -/
  | fbClear
  /-- FB_BLIT, format S (R164). -/
  | fbBlit
  /-- SWEEP, format S (R142). -/
  | sweep
  /-- FLUSH, format S (R172). -/
  | flush
  /-- CHECK id, pos, format P (R112). -/
  | check (id : BitVec 5) (pos : BitVec 8)
  /-- COMMIT id, pos, format P (R116). -/
  | commit (id : BitVec 5) (pos : BitVec 8)
  /-- DRAW id, pos, format P (R120). -/
  | draw (id : BitVec 5) (pos : BitVec 8)
  /-- FB_SET x, y, format F (R163). -/
  | fbSet (x : BitVec 5) (y : BitVec 3)
  deriving DecidableEq, Repr

end Sys2Proof
end

