-- ==== Sys2Proof/WellFormed.lean ====
section
/-!
DEFINITION. Well-formedness. A term of `Instr` cannot hold an operand that does not fit its field, because its
operands are the fields (R74). What can be ill-formed is what is WRITTEN: a line of assembly, whose operands are
numbers. Here are the lines the assembler syntax has (R90 to R92) and the check of which operands fit.
-/

namespace Sys2Proof

/-- An id as it is written: a number, or `s.o` (R91). -/
inductive AsmId where
  | num (n : Nat)
  | shapeOrient (s o : Nat)
  deriving DecidableEq, Repr

/-- A position as it is written: a number, or `(c, r)` (R91). -/
inductive AsmPos where
  | num (n : Nat)
  | colRow (c r : Nat)
  deriving DecidableEq, Repr

/-- A line of assembly: the ten commands (R90) and the four pseudo-instructions (R92). -/
inductive AsmLine where
  | nop
  | gameClear
  | fbClear
  | fbBlit
  | sweep
  | flush
  | check (id : AsmId) (pos : AsmPos)
  | commit (id : AsmId) (pos : AsmPos)
  | draw (id : AsmId) (pos : AsmPos)
  | fbSet (x y : Nat)
  | lock (id : AsmId) (pos : AsmPos)
  | preview (id : AsmId)
  | renderBase
  | fbFill (x : Nat)
  deriving DecidableEq, Repr

/-- An id fits 5 bits (R90); in the form `s.o` a shape is 0..7 and an orientation 0..3 (R91). -/
def AsmId.wellFormed : AsmId → Bool
  | .num n => decide (n ≤ 31)
  | .shapeOrient s o => decide (s ≤ 7) && decide (o ≤ 3)

/-- A position fits 8 bits (R90); in the form `(c, r)` a column is 0..7 and a row 0..31 (R91). -/
def AsmPos.wellFormed : AsmPos → Bool
  | .num n => decide (n ≤ 255)
  | .colRow c r => decide (c ≤ 7) && decide (r ≤ 31)

/-- Every operand fits its field (R90). An x of 20..31 fits: it assembles and faults at execution (R75). -/
def AsmLine.wellFormed : AsmLine → Bool
  | .nop | .gameClear | .fbClear | .fbBlit | .sweep | .flush | .renderBase => true
  | .check i p | .commit i p | .draw i p | .lock i p => i.wellFormed && p.wellFormed
  | .fbSet x y => decide (x ≤ 31) && decide (y ≤ 7)
  | .preview i => i.wellFormed
  | .fbFill x => decide (x ≤ 31)

/-- The operands of a command as numbers fit their fields. True of every term (R74, R75). -/
def Instr.wellFormed : Instr → Bool
  | .nop | .gameClear | .fbClear | .fbBlit | .sweep | .flush => true
  | .check id pos | .commit id pos | .draw id pos => decide (id.toNat ≤ 31) && decide (pos.toNat ≤ 255)
  | .fbSet x y => decide (x.toNat ≤ 31) && decide (y.toNat ≤ 7)

end Sys2Proof
end

