-- ==== Sys2Proof/Decode.lean ====
section
/-!
DEFINITION. The command encoding (R70 to R79): the fields of a word, the decoder (total, refusing by name), the
encoder, and the opcode table of R76 as data.
-/

namespace Sys2Proof

/-- Why a word is reserved: the four rows of R78's table. -/
inductive Reserved where
  /-- OP = 000, Z = 0 and FUNCT in 0x06..0xFF. -/
  | unassignedFunct
  /-- OP = 000 with Z not 0. -/
  | nonzeroZInFormatS
  /-- OP = 100 with word[7:3] not 0. -/
  | nonzeroZInFormatF
  /-- OP = 101, 110 or 111. -/
  | unassignedOpcode
  deriving DecidableEq, Repr

/-- `OP = word[15:13]` (R70). -/
def fieldOp (w : Word) : BitVec 3 := w.extractLsb' 13 3

/-- `word[12:8]`: ID in format P, X in format F, the must-be-zero Z in format S (R71 to R73). -/
def fieldHigh (w : Word) : BitVec 5 := w.extractLsb' 8 5

/-- `word[7:0]`: POS in format P, FUNCT in format S (R71, R72). -/
def fieldLow (w : Word) : BitVec 8 := w.extractLsb' 0 8

/-- `word[7:3]`: the must-be-zero Z of format F (R73). -/
def fieldZ (w : Word) : BitVec 5 := w.extractLsb' 3 5

/-- `word[2:0]`: Y in format F (R73). -/
def fieldY (w : Word) : BitVec 3 := w.extractLsb' 0 3

/-- The system functions of format S (R72). -/
def decodeFunct (funct : BitVec 8) : Except Reserved Instr :=
  if funct = 0x00#8 then .ok .nop
  else if funct = 0x01#8 then .ok .gameClear
  else if funct = 0x02#8 then .ok .fbClear
  else if funct = 0x03#8 then .ok .fbBlit
  else if funct = 0x04#8 then .ok .sweep
  else if funct = 0x05#8 then .ok .flush
  else .error .unassignedFunct

/-- R77, with a reserved word refused under the reason R78 gives. -/
def decode (w : Word) : Except Reserved Instr :=
  if fieldOp w = 0b000#3 then
    if fieldHigh w = 0b00000#5 then decodeFunct (fieldLow w) else .error .nonzeroZInFormatS
  else if fieldOp w = 0b001#3 then .ok (.check (fieldHigh w) (fieldLow w))
  else if fieldOp w = 0b010#3 then .ok (.commit (fieldHigh w) (fieldLow w))
  else if fieldOp w = 0b011#3 then .ok (.draw (fieldHigh w) (fieldLow w))
  else if fieldOp w = 0b100#3 then
    if fieldZ w = 0b00000#5 then .ok (.fbSet (fieldHigh w) (fieldY w)) else .error .nonzeroZInFormatF
  else .error .unassignedOpcode

/-- Format S: OP = 000, Z = 0, FUNCT (R72). -/
def formatS (funct : BitVec 8) : Word := 0b000#3 ++ 0b00000#5 ++ funct

/-- Format P: OP, ID, POS (R71). -/
def formatP (op : BitVec 3) (id : BitVec 5) (pos : BitVec 8) : Word := op ++ id ++ pos

/-- Format F: OP = 100, X, Z = 0, Y (R73). -/
def formatF (x : BitVec 5) (y : BitVec 3) : Word := 0b100#3 ++ x ++ 0b00000#5 ++ y

/-- The word of a command (R71 to R73, R76). -/
def encode : Instr → Word
  | .nop => formatS 0x00#8
  | .gameClear => formatS 0x01#8
  | .fbClear => formatS 0x02#8
  | .fbBlit => formatS 0x03#8
  | .sweep => formatS 0x04#8
  | .flush => formatS 0x05#8
  | .check id pos => formatP 0b001#3 id pos
  | .commit id pos => formatP 0b010#3 id pos
  | .draw id pos => formatP 0b011#3 id pos
  | .fbSet x y => formatF x y

/-- A row of the opcode map: a word selects it when `word & mask == pattern` (R76). -/
structure OpcodeRow where
  mnemonic : String
  pattern : Word
  mask : Word
  deriving DecidableEq, Repr

/-- The opcode map, row for row (R76). -/
def opcodeTable : List OpcodeRow :=
  [ { mnemonic := "NOP", pattern := 0x0000#16, mask := 0xFFFF#16 },
    { mnemonic := "GAME_CLEAR", pattern := 0x0001#16, mask := 0xFFFF#16 },
    { mnemonic := "FB_CLEAR", pattern := 0x0002#16, mask := 0xFFFF#16 },
    { mnemonic := "FB_BLIT", pattern := 0x0003#16, mask := 0xFFFF#16 },
    { mnemonic := "SWEEP", pattern := 0x0004#16, mask := 0xFFFF#16 },
    { mnemonic := "FLUSH", pattern := 0x0005#16, mask := 0xFFFF#16 },
    { mnemonic := "CHECK", pattern := 0x2000#16, mask := 0xE000#16 },
    { mnemonic := "COMMIT", pattern := 0x4000#16, mask := 0xE000#16 },
    { mnemonic := "DRAW", pattern := 0x6000#16, mask := 0xE000#16 },
    { mnemonic := "FB_SET", pattern := 0x8000#16, mask := 0xE0F8#16 } ]

/-- A word selects a row of the map (R76). -/
def OpcodeRow.selects (row : OpcodeRow) (w : Word) : Bool := w &&& row.mask == row.pattern

/-- The mnemonic of a command, as R76 spells it. -/
def Instr.mnemonic : Instr → String
  | .nop => "NOP"
  | .gameClear => "GAME_CLEAR"
  | .fbClear => "FB_CLEAR"
  | .fbBlit => "FB_BLIT"
  | .sweep => "SWEEP"
  | .flush => "FLUSH"
  | .check _ _ => "CHECK"
  | .commit _ _ => "COMMIT"
  | .draw _ _ => "DRAW"
  | .fbSet _ _ => "FB_SET"

/-- The instruction the decoder reads from a table row's bits. A command is one 16-bit word taken whole (R54, R70),
so the word is the number itself; bits above `nbits` are 0. -/
def decodeTableWord (nbits w : Nat) : Option Instr :=
  match decode (BitVec.ofNat 16 (w % 2 ^ nbits)) with
  | .ok i => some i
  | .error _ => none

end Sys2Proof
end

