-- ==== Sys2Proof/Machine/Placement.lean ====
section
/-!
DEFINITION. The board and the placement engine: GAME_CLEAR, CHECK, COMMIT, DRAW (40_board_placement.md). The word a
command records when it faults is `encode` of the command: it is the word that was issued, since each command has
one word (R76, R222).
-/

namespace Sys2Proof.Machine

/-- GAME_CLEAR: BOARD and SCORE to 0 (R108). -/
def execGameClear (s : State) : Host.Outcome State Fault Refusal :=
  .next ((s.setBoard (Vector.replicate 16 0x00#8)).setScore 0)

/-- CHECK: OK gets `legal(ROM(ID), POS, BOARD)` (R112). -/
def execCheck (id : BitVec 5) (pos : BitVec 8) (s : State) : Host.Outcome State Fault Refusal :=
  .next (s.setOk (legal (s.rom id) pos s.board))

/-- COMMIT: the piece into the board, or COMMIT_PRECONDITION with no defined BOARD (R115, R116, R223). -/
def execCommit (id : BitVec 5) (pos : BitVec 8) (s : State) : Host.Outcome State Fault Refusal :=
  .next (
    if legal (s.rom id) pos s.board then s.setBoard (lightCells (cells (s.rom id) pos) s.board)
    else raiseFault .commitPrecondition (encode (.commit id pos)) (drawBoard s))

/-- DRAW: the piece into the frame buffer, or DRAW_RANGE with nothing drawn (R120). -/
def execDraw (id : BitVec 5) (pos : BitVec 8) (s : State) : Host.Outcome State Fault Refusal :=
  .next (
    if drawInRange (s.rom id) pos then s.setFb (lightCells (cells (s.rom id) pos) s.fb)
    else raiseFault .drawRange (encode (.draw id pos)) s)

end Sys2Proof.Machine
end

