-- ==== Sys2Proof/Machine/Renderer.lean ====
section
/-!
DEFINITION. The frame-buffer renderer and the serializer: FB_CLEAR, FB_SET, FB_BLIT, FLUSH (42_renderer.md).
-/

namespace Sys2Proof.Machine

/-- FB_CLEAR darkens the whole frame buffer (R162). -/
def execFbClear (s : State) : Host.Outcome State Fault Refusal :=
  .next (s.setFb (Vector.replicate 20 0x00#8))

/-- FB_SET lights pixel (x, y), or raises DRAW_RANGE when x is 20 to 31 (R163). -/
def execFbSet (x : BitVec 5) (y : BitVec 3) (s : State) : Host.Outcome State Fault Refusal :=
  .next (
    if pixelInRange x.toNat y.toNat then s.setFb (lightBit s.fb x.toNat y.toNat)
    else raiseFault .drawRange (encode (.fbSet x y)) s)

/-- `for r in 0..15: FB[r] <- FB[r] | BOARD[r]` (R164); display columns 16 to 19 stay. -/
def blit (b : Board) (f : FrameBuffer) : FrameBuffer :=
  Vector.ofFn fun x => if h : x.val < 16 then f[x.val] ||| b[x.val] else f[x.val]

/-- FB_BLIT draws every locked board cell (R164). -/
def execFbBlit (s : State) : Host.Outcome State Fault Refusal :=
  .next (s.setFb (blit s.board s.fb))

/-- The initialization sequence as sink events: every byte a command byte, in list order (R171). -/
def initEvents (initSeq : List Byte) : List SinkEvent := initSeq.map fun b => { tag := .command, byte := b }

/-- The frame as sink events: data bytes, column 0 first, each byte whole (R172, R174). -/
def frameEvents (f : FrameBuffer) : List SinkEvent := f.toList.map fun b => { tag := .data, byte := b }

/-- The part of FLUSH that the initialization policy rules (R172). -/
def sendInit (s : State) : State :=
  if s.params.initPolicy == .everyFlush || !s.initSent then (s.emit (initEvents s.params.initSeq)).setInitSent true
  else s

/-- FLUSH: the initialization sequence where the policy asks for it, then the entire frame buffer (R172). -/
def execFlush (s : State) : Host.Outcome State Fault Refusal :=
  .next ((sendInit s).emit (frameEvents s.fb))

end Sys2Proof.Machine
end

