-- ==== Sys2Proof/Machine/System.lean ====
section
/-!
DEFINITION. The system command NOP (43_system.md).
-/

namespace Sys2Proof.Machine

/-- NOP: no state changes (R200). -/
def execNop (s : State) : Host.Outcome State Fault Refusal := .next s

end Sys2Proof.Machine
end

