-- ==== Sys2Proof/Machine/Dispatch.lean ====
section
/-!
DEFINITION. One arm per command (R76, R201).
-/

namespace Sys2Proof.Machine

def exec (i : Instr) (s : State) : Host.Outcome State Fault Refusal :=
  match i with
  | .nop => Sys2Proof.Machine.execNop s
  | .gameClear => Sys2Proof.Machine.execGameClear s
  | .fbClear => Sys2Proof.Machine.execFbClear s
  | .fbBlit => Sys2Proof.Machine.execFbBlit s
  | .sweep => Sys2Proof.Machine.execSweep s
  | .flush => Sys2Proof.Machine.execFlush s
  | .check id pos => Sys2Proof.Machine.execCheck id pos s
  | .commit id pos => Sys2Proof.Machine.execCommit id pos s
  | .draw id pos => Sys2Proof.Machine.execDraw id pos s
  | .fbSet x y => Sys2Proof.Machine.execFbSet x y s

end Sys2Proof.Machine
end

