-- ==== Sys2Proof/Machine/Port.lean ====
section
/-!
DEFINITION. The block's ports: the observation port's map (R33), the dispatch every command word goes through
(R201), and the taking of one host action.
-/

namespace Sys2Proof.Machine

/-- The low byte of a value, and the next (R54: the low byte at the lower address); 0 in the bits it does not have (R33). -/
def byteOf {w : Nat} (v : BitVec w) (k : Nat) : Byte := v.extractLsb' (8 * k) 8

/-- A read of the observation port at address `a` (R33). -/
def observe (s : State) (a : BitVec 6) : Byte :=
  if h : a.toNat < 0x10 then s.board[a.toNat]
  else if h : a.toNat < 0x24 then s.fb[a.toNat - 0x10]'(by omega)
  else if a = 0x24#6 then s.status
  else if a = 0x25#6 then byteOf s.scoreBits 0
  else if a = 0x26#6 then byteOf s.scoreBits 1
  else if a = 0x27#6 then byteOf s.faultCmd 0
  else if a = 0x28#6 then byteOf s.faultCmd 1
  else 0x00#8

/-- The dispatch of a command word (R201): ignored while halted (R202), ILLEGAL_COMMAND if reserved (R221), else
executed. -/
def dispatchWord (w : Word) (s : State) : Host.Outcome State Fault Refusal :=
  if s.halted then .next s
  else
    match decode w with
    | .error _ => .next (raiseFault .illegalCommand w s)
    | .ok i => exec i s

/-- One host action. Each is taken whole before the next (R57, R59); a read of the observation port changes nothing
of the block (R33). -/
def takeAction (act : HostAction) (s : State) : Host.Outcome State Fault Refusal :=
  match act with
  | .command w => dispatchWord w s
  | .observe a => .next (s.setReplies (s.replies ++ [observe s a]))
  | .reset => .next (resetBlock s)

/-- Take the host's next action from the ports. With none, the block holds its state and does nothing (R236). -/
def takeNext (s : State) : Host.Outcome State Fault Refusal :=
  match s.port with
  | [] => .next s
  | act :: rest => takeAction act (s.setPort rest)

/-- The host will do `acts` after all it already has to do. -/
def State.issue (s : State) (acts : List HostAction) : State := s.setPort (s.port ++ acts)

end Sys2Proof.Machine
end

