-- ==== Sys2Proof/Machine/Step.lean ====
section
/-!
DEFINITION. One step of the machine: the host's next action, taken whole (R57, R59).
-/

namespace Sys2Proof.Machine

/-- One step. -/
def step (s : State) : Host.Outcome State Fault Refusal := takeNext s

/-- `s` with a command word next on the command port. The block fetches nothing (R35): its next command is the word
the host issues next. Log entry 4. -/
def State.withFetchWord (s : State) (nbits w : Nat) : State :=
  s.setPort (.command (BitVec.ofNat 16 (w % 2 ^ nbits)) :: s.port)

end Sys2Proof.Machine
end

