-- ==== Sys2Proof/Machine/HostSide.lean ====
section
/-!
DEFINITION. The host's conventions the spec writes down: rotation and moves as operands (R107, R122, R264), the lock
(R92), the render pass (R165), the order of a new game (R255). They are words the host issues; the block knows none of
them. The game itself is out of scope (R6).
-/

namespace Sys2Proof.Machine

/-- A command as the host issues it. -/
def issued (i : Instr) : HostAction := .command (encode i)

/-- The next orientation of the same shape (R107). -/
def rotNext (id : BitVec 5) : BitVec 5 := idOf (idShape id) (idOrient id + 1)

/-- The previous orientation of the same shape (R107). -/
def rotPrev (id : BitVec 5) : BitVec 5 := idOf (idShape id) (idOrient id + 3)

/-- One row down is `pos + 8`; it wraps from row 31 in 8 bits (R122, R264). -/
def posDown (pos : BitVec 8) : BitVec 8 := pos + 8

/-- One column to the left in the same row; none from column 0 (R264). -/
def posLeft (pos : BitVec 8) : Option (BitVec 8) := if posCol pos = 0 then none else some (pos - 1)

/-- One column to the right in the same row; none from column 7 (R264). -/
def posRight (pos : BitVec 8) : Option (BitVec 8) := if posCol pos = 7 then none else some (pos + 1)

/-- Gravity: test one row down (R122). -/
def gravityTest (id : BitVec 5) (pos : BitVec 8) : Instr := .check id (posDown pos)

/-- Rotation: test the next orientation at the same position, no wall-kick (R107, R122). -/
def rotationTest (id : BitVec 5) (pos : BitVec 8) : Instr := .check (rotNext id) pos

/-- Spawn: test the new piece at the spawn position; OK = 0 is game over (R122, R255). -/
def spawnTest (id : BitVec 5) : Instr := .check id Config.spawnPos

/-- Lock: COMMIT, then SWEEP (R92, R122, R261). -/
def lockPiece (id : BitVec 5) (pos : BitVec 8) : List Instr := [.commit id pos, .sweep]

/-- The next-piece preview: DRAW at the sentinel (R92, R121). -/
def previewPiece (id : BitVec 5) : Instr := .draw id Config.previewPos

/-- A column of eight lit pixels (R92). -/
def fillColumn (x : BitVec 5) : List Instr := (List.range 8).map fun y => .fbSet x (BitVec.ofNat 3 y)

/-- The base of every frame: FB_CLEAR, then FB_BLIT (R92). -/
def renderBase : List Instr := [.fbClear, .fbBlit]

/-- A render pass (R165): the base, the active piece, the preview, the host's own artwork, FLUSH. -/
def renderPass (activeId : BitVec 5) (activePos : BitVec 8) (nextId : BitVec 5) (artwork : List (BitVec 5 × BitVec 3)) :
    List Instr :=
  renderBase ++ [.draw activeId activePos, previewPiece nextId] ++ artwork.map (fun p => .fbSet p.1 p.2) ++ [.flush]

/-- The start of a new game: GAME_CLEAR, then the spawn test (R255). -/
def newGame (id : BitVec 5) : List Instr := [.gameClear, spawnTest id]

/-- The observation address of STATUS (R33). -/
def statusAddr : BitVec 6 := 0x24#6

end Sys2Proof.Machine
end

