-- ==== Sys2Proof/Machine/Assembler.lean ====
section
/-!
DEFINITION. The assembler (R90 to R92): a line to its commands, a text line to a line of assembly. It is syntax only,
with no effect on the block (D30). Log entry 9 names what the spec leaves open of it.
-/

namespace Sys2Proof.Machine

/-- The number an id is written as (R91: `id = 4 * s + o`). -/
def asmIdField : AsmId → BitVec 5
  | .num n => BitVec.ofNat 5 n
  | .shapeOrient s o => idOf (BitVec.ofNat 3 s) (BitVec.ofNat 2 o)

/-- The number a position is written as (R91: `pos = 8 * r + c`). -/
def asmPosField : AsmPos → BitVec 8
  | .num n => BitVec.ofNat 8 n
  | .colRow c r => posOf (BitVec.ofNat 5 r) (BitVec.ofNat 3 c)

/-- The commands of a line whose operands fit (R90 to R92). -/
def expandLine : AsmLine → List Instr
  | .nop => [.nop]
  | .gameClear => [.gameClear]
  | .fbClear => [.fbClear]
  | .fbBlit => [.fbBlit]
  | .sweep => [.sweep]
  | .flush => [.flush]
  | .check i p => [.check (asmIdField i) (asmPosField p)]
  | .commit i p => [.commit (asmIdField i) (asmPosField p)]
  | .draw i p => [.draw (asmIdField i) (asmPosField p)]
  | .fbSet x y => [.fbSet (BitVec.ofNat 5 x) (BitVec.ofNat 3 y)]
  | .lock i p => lockPiece (asmIdField i) (asmPosField p)
  | .preview i => [previewPiece (asmIdField i)]
  | .renderBase => renderBase
  | .fbFill x => fillColumn (BitVec.ofNat 5 x)

/-- The assembler refuses an operand that does not fit its field (R90). -/
def assemble (l : AsmLine) : Option (List Instr) := if l.wellFormed then some (expandLine l) else none

/-- The words of a line (R90). -/
def assembleWords (l : AsmLine) : Option (List Word) := (assemble l).map (List.map encode)

/-! ### Text -/

/-- The value of a digit in a base of at most 16. -/
def digitVal (base : Nat) (c : Char) : Option Nat :=
  let n := c.toNat
  let v := if 48 ≤ n ∧ n ≤ 57 then n - 48 else if 97 ≤ n ∧ n ≤ 102 then n - 87
    else if 65 ≤ n ∧ n ≤ 70 then n - 55 else 16
  if v < base then some v else none

/-- One digit or more in a base. -/
def parseDigits (base : Nat) : List Char → Option Nat
  | [] => none
  | cs => cs.foldlM (fun acc c => (digitVal base c).map fun d => acc * base + d) 0

/-- A number: decimal, or with prefix `0x` or `0b` (R90). -/
def parseNumber : List Char → Option Nat
  | '0' :: 'x' :: cs => parseDigits 16 cs
  | '0' :: 'b' :: cs => parseDigits 2 cs
  | cs => parseDigits 10 cs

/-- What stands before and after the first `c`. -/
def splitAtChar (c : Char) : List Char → List Char × Option (List Char)
  | [] => ([], none)
  | x :: xs =>
    if x = c then ([], some xs)
    else ((x :: (splitAtChar c xs).1), (splitAtChar c xs).2)

/-- An id: a number or `s.o` (R91). -/
def parseId (cs : List Char) : Option AsmId :=
  match splitAtChar '.' cs with
  | (a, none) => (parseNumber a).map .num
  | (a, some b) => do return .shapeOrient (← parseNumber a) (← parseNumber b)

/-- A blank: a space or a tab. -/
def isBlank (c : Char) : Bool := c == ' ' || c == '\t'

/-- Text without the blanks at its two ends. -/
def trimBlanks (cs : List Char) : List Char :=
  ((cs.dropWhile isBlank).reverse.dropWhile isBlank).reverse

/-- A position: a number or `(c, r)` (R91). -/
def parsePos (cs : List Char) : Option AsmPos :=
  match cs with
  | '(' :: rest =>
    match splitAtChar ',' rest with
    | (c, some r) =>
      match splitAtChar ')' r with
      | (r, some []) => do return .colRow (← parseNumber (trimBlanks c)) (← parseNumber (trimBlanks r))
      | _ => none
    | _ => none
  | cs => (parseNumber cs).map .num

/-- The operands of a line of mnemonic `m` (R90, R92), `ops` its text after the mnemonic, trimmed. The first comma ends
an id or an x; what follows is the second operand. -/
def parseOperands (m ops : List Char) : Option AsmLine :=
  let first := trimBlanks (splitAtChar ',' ops).1
  let second := (splitAtChar ',' ops).2.map trimBlanks
  let placed (f : AsmId → AsmPos → AsmLine) : Option AsmLine := do
    return f (← parseId first) (← parsePos (← second))
  if ops = [] then
    if m = "NOP".toList then some .nop
    else if m = "GAME_CLEAR".toList then some .gameClear
    else if m = "FB_CLEAR".toList then some .fbClear
    else if m = "FB_BLIT".toList then some .fbBlit
    else if m = "SWEEP".toList then some .sweep
    else if m = "FLUSH".toList then some .flush
    else if m = "RENDER_BASE".toList then some .renderBase
    else none
  else if m = "CHECK".toList then placed .check
  else if m = "COMMIT".toList then placed .commit
  else if m = "DRAW".toList then placed .draw
  else if m = "LOCK".toList then placed .lock
  else if m = "FB_SET".toList then do return .fbSet (← parseNumber first) (← parseNumber (← second))
  else if m = "PREVIEW".toList then (parseId ops).map .preview
  else if m = "FB_FILL".toList then (parseNumber ops).map .fbFill
  else none

/-- A line of text: an optional comment from `;`, then a mnemonic and its operands (R90). A line with neither holds no
command. `none` is a line the syntax does not have. -/
def parseLine (text : List Char) : Option (List AsmLine) :=
  let body := trimBlanks (splitAtChar ';' text).1
  if body = [] then some []
  else
    let m := body.takeWhile (!isBlank ·)
    (parseOperands m (trimBlanks (body.drop m.length))).map fun l => [l]

/-- The commands of a line of text. -/
def assembleText (text : List Char) : Option (List Instr) := do
  let ls ← parseLine text
  let is ← ls.mapM assemble
  return is.flatten

end Sys2Proof.Machine
end

