-- ==== Sys2Proof/Safety.lean ====
section
/-!
DEFINITION. What counts as a good state and a good host: the invariants of the machine, the condition every claim about
BOARD stands on (no fault recorded, U1), and the host's duties the spec states (R254, R260).
-/

namespace Sys2Proof.Safety

open Sys2Proof.Machine

/-- No fault is recorded: the block runs, and BOARD has its defined value (R223; U1). -/
def running (s : State) : Prop := s.faultCause = .noFault

/-- LINES holds 0 to 16 (R36, R144). -/
def linesBounded (s : State) : Prop := s.lines.toNat ≤ 16

/-- The fault record is one a fault wrote: no fault and no word, or a cause with a word that can raise it (R30, R220). -/
def faultRecordSound (s : State) : Prop :=
  match s.faultCause with
  | .noFault => s.faultCmd = 0x0000#16
  | .illegalCommand => ∃ e, decode s.faultCmd = .error e
  | .commitPrecondition => ∃ id pos, decode s.faultCmd = .ok (.commit id pos)
  | .drawRange =>
    (∃ id pos, decode s.faultCmd = .ok (.draw id pos)) ∨
      (∃ x y, decode s.faultCmd = .ok (.fbSet x y) ∧ 20 ≤ x.toNat)

/-- SCORE fits its SCORE_WIDTH bits (R25, R143). -/
def scoreFits (s : State) : Prop := s.score < 2 ^ s.params.scoreWidth

/-- What FLUSHes of these frames, oldest first, have sent since reset (R171, R172, R174): with INIT_POLICY = ONCE the
initialization sequence before the first frame alone, with EVERY_FLUSH before each; every frame whole. -/
def flushedTrace (policy : Config.InitPolicy) (initSeq : List Byte) (frames : List FrameBuffer) : List SinkEvent :=
  match policy with
  | .once => (if frames = [] then [] else initEvents initSeq) ++ frames.flatMap frameEvents
  | .everyFlush => frames.flatMap fun f => initEvents initSeq ++ frameEvents f

/-- The sink trace is what the FLUSHes of some frames have sent, and INIT_SENT says whether there was one (R29, R34). -/
def traceSound (s : State) : Prop :=
  ∃ frames : List FrameBuffer, (s.initSent = true ↔ frames ≠ []) ∧
    s.trace = flushedTrace s.params.initPolicy s.params.initSeq frames

/-- The invariant of the machine. -/
structure Inv (s : State) : Prop where
  score : scoreFits s
  lines : linesBounded s
  fault : faultRecordSound s
  trace : traceSound s

/-- The command of an action, where it is a command word that decodes. -/
def commandOf : HostAction → Option Instr
  | .command w => (decode w).toOption
  | _ => none

/-- An action that leaves a CHECK's answer good for a COMMIT: no reset, and no COMMIT, SWEEP or GAME_CLEAR (R260). -/
def keepsCheckFresh (act : HostAction) : Bool :=
  match act with
  | .reset => false
  | .observe _ => true
  | .command w =>
    match decode w with
    | .ok (.commit _ _) => false
    | .ok .sweep => false
    | .ok .gameClear => false
    | _ => true

/-- A drawing command of a render pass: it only lights pixels (R165). -/
def isDrawing : Instr → Bool
  | .fbBlit | .draw _ _ | .fbSet _ _ => true
  | _ => false

/-- An action that shows nothing of FB before it is cleared: no FLUSH, and no read of an FB byte (R254). -/
def hidesFrame (act : HostAction) : Bool :=
  match act with
  | .reset => false
  | .observe a => decide (a.toNat < 0x10) || decide (0x24 ≤ a.toNat)
  | .command w => decode w != .ok .flush

/-- Two states that agree on everything but FB. -/
def agreeButFb (s t : State) : Prop := t = s.setFb t.fb

/-- The number of occupied cells of a board, or of lit pixels of a frame. -/
def litCount {n : Nat} (g : Grid n) : Nat :=
  (g.toList.map fun row => ((List.range 8).filter row.getLsbD).length).sum

/-- `popcount(m)` (R11). -/
def popcount (m : Byte) : Nat := ((List.range 8).filter m.getLsbD).length

end Sys2Proof.Safety
end

