-- ==== Sys2Proof/Certificates/Slice0/Obligations.lean ====
section
/-!
DEFINITION. The statements about the model. Each docstring names the rule of spec/ it formalises; the few words of
the spec's formulas come first, said from the spec's numbers and not from the model's operations.
-/

namespace Sys2Proof.Statements

open Sys2Proof.Machine

/-- Cell `(c, r)` belongs to the piece of mask `m` at `pos` (R102 to R104), said in numbers. -/
abbrev pieceCell (m : Byte) (pos : BitVec 8) (c r : Nat) : Prop :=
  ∃ k < 8, m.getLsbD (7 - k) = true ∧ c = pos.toNat % 8 + k % 3 ∧ r = pos.toNat / 8 + k / 3

/-- Every set bit's cell lies within bounds and is unoccupied (R109, R114). -/
abbrev placementLegal (m : Byte) (pos : BitVec 8) (b : Board) : Prop :=
  ∀ k < 8, m.getLsbD (7 - k) = true →
    pos.toNat % 8 + k % 3 < 8 ∧ pos.toNat / 8 + k / 3 < 16 ∧
      gridBit b (pos.toNat / 8 + k / 3) (pos.toNat % 8 + k % 3) = false

/-- Every set bit's pixel exists in the 20 x 8 buffer (R119). -/
abbrev drawingInRange (m : Byte) (pos : BitVec 8) : Prop :=
  ∀ k < 8, m.getLsbD (7 - k) = true → pos.toNat % 8 + k % 3 < 8 ∧ pos.toNat / 8 + k / 3 < 20

/-- The rows of a board that are not full, top first (R147's N). -/
def rowsKept (b : Board) : List Byte := b.toList.filter (· ≠ 0xFF#8)

end Sys2Proof.Statements

section

open Sys2Proof Sys2Proof.Machine Sys2Proof.Safety Sys2Proof.Statements

/-! ### Encoding -/

/-- Words written out from R71 to R73 and R90 decode to their commands. -/
def Obligations.WrittenWordsDecode : Prop :=
  decode 0b0000000000000000#16 = .ok .nop ∧
  decode 0b0000000000000001#16 = .ok .gameClear ∧
  decode 0b0000000000000010#16 = .ok .fbClear ∧
  decode 0b0000000000000011#16 = .ok .fbBlit ∧
  decode 0b0000000000000100#16 = .ok .sweep ∧
  decode 0b0000000000000101#16 = .ok .flush ∧
  decode 0b0010100000000101#16 = .ok (.check 8 0x05) ∧
  decode 0b0100100000000101#16 = .ok (.commit 8 0x05) ∧
  decode 0b0110100010001011#16 = .ok (.draw 8 0x8B) ∧
  decode 0b1001000000000111#16 = .ok (.fbSet 16 7)

/-- R71 to R74, R77: every command is read back from its word, with every operand at every value. -/
def Obligations.DecodeOfEncodeIsTheCommand : Prop :=
  ∀ i : Instr, i.wellFormed = true ∧ decode (encode i) = .ok i

/-- R77, R79: a word has one meaning; a command's word is the one it was read from. -/
def Obligations.EncodeOfDecodeIsTheWord : Prop :=
  ∀ (w : Word) (i : Instr), decode w = .ok i → encode i = w

/-- R76: the ten rows; a word selects a row when `word & mask == match`; at most one row matches any word; the decoder
reads the selected row's command, and a word that selects none is reserved. -/
def Obligations.OpcodeMapSelectsTheDecodedCommand : Prop :=
  opcodeTable.map (fun row => (row.mnemonic, row.pattern, row.mask)) =
    [("NOP", 0x0000#16, 0xFFFF#16), ("GAME_CLEAR", 0x0001#16, 0xFFFF#16), ("FB_CLEAR", 0x0002#16, 0xFFFF#16),
     ("FB_BLIT", 0x0003#16, 0xFFFF#16), ("SWEEP", 0x0004#16, 0xFFFF#16), ("FLUSH", 0x0005#16, 0xFFFF#16),
     ("CHECK", 0x2000#16, 0xE000#16), ("COMMIT", 0x4000#16, 0xE000#16), ("DRAW", 0x6000#16, 0xE000#16),
     ("FB_SET", 0x8000#16, 0xE0F8#16)] ∧
  (∀ row ∈ opcodeTable, ∀ w, row.selects w = true ↔ w &&& row.mask = row.pattern) ∧
  (∀ (w : Word) (row row' : OpcodeRow), row ∈ opcodeTable → row' ∈ opcodeTable →
    row.selects w = true → row'.selects w = true → row = row') ∧
  (∀ (w : Word) (i : Instr), decode w = .ok i →
    ∃ row ∈ opcodeTable, row.selects w = true ∧ row.mnemonic = i.mnemonic) ∧
  (∀ (w : Word) (e : Reserved), decode w = .error e → ∀ row ∈ opcodeTable, row.selects w = false)

/-- R74: fields are read as they stand, zero-extended, neither scaled nor shifted, in every command with operands. -/
def Obligations.OperandFieldsAreReadUnchanged : Prop :=
  (∀ (w : Word) (id : BitVec 5) (pos : BitVec 8),
    decode w = .ok (.check id pos) ∨ decode w = .ok (.commit id pos) ∨ decode w = .ok (.draw id pos) →
      id.toNat = w.toNat / 256 % 32 ∧ pos.toNat = w.toNat % 256) ∧
  (∀ (w : Word) (x : BitVec 5) (y : BitVec 3), decode w = .ok (.fbSet x y) →
    x.toNat = w.toNat / 256 % 32 ∧ y.toNat = w.toNat % 8)

/-- R78: exactly which words are reserved, and under which row of the rule's table. -/
def Obligations.ReservedWordsByRange : Prop :=
  ∀ w : Word,
    (decode w = .error .unassignedFunct ↔ 0x0006 ≤ w.toNat ∧ w.toNat ≤ 0x00FF) ∧
    (decode w = .error .nonzeroZInFormatS ↔ 0x0100 ≤ w.toNat ∧ w.toNat < 0x2000) ∧
    (decode w = .error .nonzeroZInFormatF ↔ 0x8000 ≤ w.toNat ∧ w.toNat < 0xA000 ∧ w.toNat / 8 % 32 ≠ 0) ∧
    (decode w = .error .unassignedOpcode ↔ 0xA000 ≤ w.toNat)

/-- R90, R92: a line assembles exactly when its operands, as numbers, fit their fields, and then to the commands it
names: the six lines of format S and RENDER_BASE, which have no operand, and CHECK, COMMIT, DRAW, FB_SET, LOCK, PREVIEW
and FB_FILL at every value of theirs. (The spellings `s.o` and `(c, r)` have a statement of their own.) -/
def Obligations.AssemblerRefusesOperandsThatDoNotFit : Prop :=
  assemble .nop = some [.nop] ∧ assemble .gameClear = some [.gameClear] ∧ assemble .fbClear = some [.fbClear] ∧
  assemble .fbBlit = some [.fbBlit] ∧ assemble .sweep = some [.sweep] ∧ assemble .flush = some [.flush] ∧
  assemble .renderBase = some [.fbClear, .fbBlit] ∧
  (∀ i p : Nat,
    let fits := i ≤ 31 ∧ p ≤ 255
    let id := BitVec.ofNat 5 i
    let pos := BitVec.ofNat 8 p
    assemble (.check (.num i) (.num p)) = (if fits then some [.check id pos] else none) ∧
    assemble (.commit (.num i) (.num p)) = (if fits then some [.commit id pos] else none) ∧
    assemble (.draw (.num i) (.num p)) = (if fits then some [.draw id pos] else none) ∧
    assemble (.lock (.num i) (.num p)) = (if fits then some [.commit id pos, .sweep] else none)) ∧
  (∀ i : Nat, assemble (.preview (.num i)) = if i ≤ 31 then some [.draw (BitVec.ofNat 5 i) 0x8B#8] else none) ∧
  (∀ x y : Nat,
    assemble (.fbSet x y) =
      if x ≤ 31 ∧ y ≤ 7 then some [.fbSet (BitVec.ofNat 5 x) (BitVec.ofNat 3 y)] else none) ∧
  (∀ x : Nat,
    assemble (.fbFill x) =
      if x ≤ 31 then some ([0, 1, 2, 3, 4, 5, 6, 7].map fun y => .fbSet (BitVec.ofNat 5 x) y) else none)

/-- R91: `s.o` is the id `4 * s + o` and `(c, r)` the position `8 * r + c`, refused outside their ranges; the same in
every line that takes an id or a position, whichever way its other operand is spelled. -/
def Obligations.AlternativeSpellingsAssembleAlike : Prop :=
  (∀ line ∈ [AsmLine.check, .commit, .draw, .lock],
    (∀ (s o : Nat) (p : AsmPos), assemble (line (.shapeOrient s o) p) =
      if s ≤ 7 ∧ o ≤ 3 then assemble (line (.num (4 * s + o)) p) else none) ∧
    (∀ (i : AsmId) (c r : Nat), assemble (line i (.colRow c r)) =
      if c ≤ 7 ∧ r ≤ 31 then assemble (line i (.num (8 * r + c))) else none)) ∧
  (∀ s o : Nat, assemble (.preview (.shapeOrient s o)) =
    if s ≤ 7 ∧ o ≤ 3 then assemble (.preview (.num (4 * s + o))) else none)

/-- R92: the expansions of the four pseudo-instructions, on operands that fit. -/
def Obligations.PseudoInstructionsExpand : Prop :=
  (∀ (id : BitVec 5) (pos : BitVec 8),
    assemble (.lock (.num id.toNat) (.num pos.toNat)) = some [.commit id pos, .sweep] ∧
    assemble (.preview (.num id.toNat)) = some [.draw id 0x8B#8]) ∧
  assemble .renderBase = some [.fbClear, .fbBlit] ∧
  (∀ x : BitVec 5, assemble (.fbFill x.toNat) =
    some [.fbSet x 0, .fbSet x 1, .fbSet x 2, .fbSet x 3, .fbSet x 4, .fbSet x 5, .fbSet x 6, .fbSet x 7])

/-- R107: rotation changes the orientation bits alone, cyclically: with `id = 4 * shape + orientation`,
`rot_next` adds one to the orientation modulo 4 and `rot_prev` adds three. -/
def Obligations.RotationTurnsTheOrientationAlone : Prop :=
  ∀ id : BitVec 5,
    (rotNext id).toNat = 4 * (id.toNat / 4) + (id.toNat % 4 + 1) % 4 ∧
    (rotPrev id).toNat = 4 * (id.toNat / 4) + (id.toNat % 4 + 3) % 4

/-! ### Dispatch, halting, reset -/

/-- R201: while the block runs, a step runs the command its next word decodes to, and nothing is around it but the
word's leaving the port. -/
def Obligations.StepRunsTheDecodedCommand : Prop :=
  (∀ (s : State) (w : Word) (rest : List HostAction) (i : Instr),
    s.port = .command w :: rest → s.faultCause = .noFault → decode w = .ok i →
      step s = exec i { s with port := rest }) ∧
  (∀ (s : State) (i : Instr), s.faultCause = .noFault → step (s.withFetchWord 16 (encode i).toNat) = exec i s)

/-- R221: a reserved word changes nothing except the fault registers. -/
def Obligations.ReservedWordRaisesIllegalCommand : Prop :=
  ∀ (s : State) (w : Word) (rest : List HostAction) (e : Reserved),
    s.port = .command w :: rest → s.faultCause = .noFault → decode w = .error e →
      step s = .next { s with port := rest, faultCause := .illegalCommand, faultCmd := w }

/-- R202: while halted every command word is taken and does nothing, observation reads still answer, and only reset
leaves the halted state. -/
def Obligations.HaltedBlockIgnoresCommands : Prop :=
  ∀ (s : State), s.faultCause ≠ .noFault →
    (∀ w rest, s.port = .command w :: rest → step s = .next { s with port := rest }) ∧
    (∀ a rest, s.port = .observe a :: rest →
      step s = .next { s with port := rest, replies := s.replies ++ [observe s a] }) ∧
    (∀ rest, s.port = .reset :: rest → ∃ t, step s = .next t ∧ t.faultCause = .noFault) ∧
    (∀ t, step s = .next t → t.faultCause = .noFault → ∃ rest, s.port = .reset :: rest)

/-- R226: there is no return from a fault and no nested fault: through any number of steps with no reset to come, the
first fault is kept, and with it all of the block. -/
def Obligations.FirstFaultIsKeptUntilReset : Prop :=
  ∀ (k : Nat) (s : State), s.faultCause ≠ .noFault → HostAction.reset ∉ s.port →
    ∃ t, core.run k s = .next t ∧ t = { s with port := t.port, replies := t.replies }

/-- R222, R223: a fault raised by a step records the cause and the issued word, ends the command and halts. An illegal
word and a draw out of range leave all else; a COMMIT_PRECONDITION leaves all but BOARD. (`draws` is the model's
own count of free values, log entry 1; the word has left the port.) -/
def Obligations.FaultIsPreciseAndRecordsTheWord : Prop :=
  ∀ (s t : State) (w : Word) (rest : List HostAction),
    s.port = .command w :: rest → s.faultCause = .noFault → step s = .next t → t.faultCause ≠ .noFault →
      t.faultCmd = w ∧ t.halted = true ∧
      t = { s with port := rest, faultCause := t.faultCause, faultCmd := w, board := t.board, draws := t.draws } ∧
      (t.faultCause ≠ .commitPrecondition → t.board = s.board ∧ t.draws = s.draws)

/-- R220: the causes, their codes, which command raises which and when, and the word recorded; no other command faults. -/
def Obligations.FaultCausesByCommand : Prop :=
  (FaultCause.noFault.code = 0 ∧ FaultCause.illegalCommand.code = 1 ∧ FaultCause.commitPrecondition.code = 2 ∧
    FaultCause.drawRange.code = 3) ∧
  ∀ (s t : State) (w : Word) (rest : List HostAction),
    s.port = .command w :: rest → s.faultCause = .noFault → step s = .next t →
      (t.faultCause = .illegalCommand ↔ ∃ e, decode w = .error e) ∧
      (t.faultCause = .commitPrecondition ↔
        ∃ id pos, decode w = .ok (.commit id pos) ∧ ¬ placementLegal (s.rom id) pos s.board) ∧
      (t.faultCause = .drawRange ↔
        (∃ id pos, decode w = .ok (.draw id pos) ∧ ¬ drawingInRange (s.rom id) pos) ∨
        (∃ x y, decode w = .ok (.fbSet x y) ∧ 20 ≤ x.toNat)) ∧
      (t.faultCause ≠ .noFault → t.faultCmd = w)

/-- Every step of every state answers a next state. That nothing stops the model is the model's reading of the spec (log
entry 15, DEDUCED): a fault halts the block, which goes on taking words (R202, R222). So is what a step with nothing
pending does (log entry 12, DEDUCED): between commands the block holds its state (R236). -/
def Obligations.EveryStepAnswersANextState : Prop := ∀ s : State, ∃ t, step s = .next t

/-- R250, R251, R253: reset gives every element its value at once, from any state, halted or not. FB is the model's
free draw (log entry 1); that the host's pending actions and replies stay is the model's choice (log entry 6). -/
def Obligations.ResetGivesEveryElementItsValue : Prop :=
  ∀ (s : State) (rest : List HostAction), s.port = .reset :: rest →
    ∃ t, step s = .next t ∧
      (∀ r, (h : r < 16) → t.board[r] = 0x00#8) ∧ t.score = 0 ∧ t.ok = false ∧ t.lines = 0 ∧
      (∀ x, (h : x < 20) → t.fb[x] = Config.freeByte (s.draws + x)) ∧
      t.initSent = false ∧ t.faultCause = .noFault ∧ t.faultCmd = 0x0000#16 ∧ t.status = 0x00#8 ∧ t.trace = [] ∧
      t.params = s.params ∧ t.port = rest ∧ t.replies = s.replies

/-- R251: the state right after reset. FB is the model's free draw (log entry 1). That the parameters stand at
Config.params there, INIT_POLICY = ONCE and SCORE_WIDTH = 16 among them as the spec decided them, is the model's choice
(log entries 3 and 5). -/
def Obligations.ResetStateHasTheListedValues : Prop :=
  (∀ r, (h : r < 16) → State.reset.board[r] = 0x00#8) ∧ State.reset.score = 0 ∧ State.reset.ok = false ∧
  State.reset.lines = 0 ∧ (∀ x, (h : x < 20) → State.reset.fb[x] = Config.freeByte x) ∧
  State.reset.initSent = false ∧ State.reset.faultCause = .noFault ∧ State.reset.faultCmd = 0x0000#16 ∧
  State.reset.status = 0x00#8 ∧ State.reset.trace = [] ∧ State.reset.params = Config.params ∧
  Config.params.initPolicy = .once ∧ Config.params.scoreWidth = 16

/-! ### Board and placement -/

/-- R200: NOP, word 0x0000, changes nothing. -/
def Obligations.NopChangesNothing : Prop := encode .nop = 0x0000#16 ∧ ∀ s : State, exec .nop s = .next s

/-- R108: GAME_CLEAR, word 0x0001, empties the board and zeroes the score, and leaves the rest. -/
def Obligations.GameClearEmptiesBoardAndScore : Prop :=
  encode .gameClear = 0x0001#16 ∧
  ∀ s : State, ∃ t, exec .gameClear s = .next t ∧
    (∀ r, (h : r < 16) → t.board[r] = 0x00#8) ∧ t.score = 0 ∧
    t = { s with board := t.board, score := t.score }

/-- R112 (R109 to R111): CHECK sets OK exactly when every set bit's cell is within bounds and unoccupied, and writes OK
only, for every ID and POS. -/
def Obligations.CheckAnswersPlacementLegality : Prop :=
  (∀ id pos, encode (.check id pos) &&& 0xE000#16 = 0x2000#16) ∧
  ∀ (s : State) (id : BitVec 5) (pos : BitVec 8), ∃ t, exec (.check id pos) s = .next t ∧
    (t.ok = true ↔ placementLegal (s.rom id) pos s.board) ∧ t = { s with ok := t.ok }

/-- R116: a COMMIT of a legal piece sets exactly the piece's cells in BOARD and writes nothing else; any other raises
COMMIT_PRECONDITION with its word and leaves all but BOARD. (`draws` is the model's own count of free values.) -/
def Obligations.CommitWritesTheLegalPieceOrHalts : Prop :=
  (∀ id pos, encode (.commit id pos) &&& 0xE000#16 = 0x4000#16) ∧
  ∀ (s : State) (id : BitVec 5) (pos : BitVec 8),
    (placementLegal (s.rom id) pos s.board →
      ∃ t, exec (.commit id pos) s = .next t ∧
        (∀ c r, c < 8 → r < 16 →
          (gridBit t.board r c = true ↔ gridBit s.board r c = true ∨ pieceCell (s.rom id) pos c r)) ∧
        t = { s with board := t.board }) ∧
    (¬ placementLegal (s.rom id) pos s.board →
      ∃ t, exec (.commit id pos) s = .next t ∧
        t = { s with board := t.board, draws := t.draws, faultCause := .commitPrecondition,
                     faultCmd := encode (.commit id pos) })

/-- The model's form of "BOARD is unspecified" after COMMIT_PRECONDITION (log entry 2): each row is the next free value
of a source nothing is known of, and the count of draws moves past them. -/
def Obligations.UnspecifiedBoardIsFreeValues : Prop :=
  ∀ (s : State) (id : BitVec 5) (pos : BitVec 8), ¬ placementLegal (s.rom id) pos s.board →
    ∃ t, exec (.commit id pos) s = .next t ∧
      (∀ r, (h : r < 16) → t.board[r] = Config.freeByte (s.draws + r)) ∧ t.draws = s.draws + 16

/-- R117: a COMMIT that does not fault adds exactly popcount(mask) occupied cells and clears none.
The spec marks this as derived from its other rules. -/
def Obligations.CommitAddsPopcountCells : Prop :=
  ∀ (s : State) (id : BitVec 5) (pos : BitVec 8), placementLegal (s.rom id) pos s.board →
    ∃ t, exec (.commit id pos) s = .next t ∧
      litCount t.board = litCount s.board + popcount (s.rom id) ∧
      (∀ c r, gridBit s.board r c = true → gridBit t.board r c = true)

/-- R116, R56: a second identical COMMIT of a non-empty mask faults, its own cells being occupied.
The spec marks this as derived from its other rules. -/
def Obligations.RepeatedCommitFaults : Prop :=
  ∀ (s : State) (id : BitVec 5) (pos : BitVec 8), s.rom id ≠ 0x00#8 → placementLegal (s.rom id) pos s.board →
    ∃ t u, exec (.commit id pos) s = .next t ∧ exec (.commit id pos) t = .next u ∧
      t.faultCause = s.faultCause ∧ u.faultCause = .commitPrecondition

/-- R260: a COMMIT does not fault when the last CHECK with its ID and POS gave OK = 1 and no COMMIT, SWEEP or GAME_CLEAR
has run since, whatever else the host did between, short of a reset. -/
def Obligations.CheckedCommitDoesNotFault : Prop :=
  ∀ (s a t u : State) (id : BitVec 5) (pos : BitVec 8) (between rest : List HostAction),
    s.faultCause = .noFault →
    s.port = .command (encode (.check id pos)) :: between ++ .command (encode (.commit id pos)) :: rest →
    (∀ act ∈ between, keepsCheckFresh act = true) →
    step s = .next a → a.ok = true →
    core.run between.length a = .next t → t.faultCause = .noFault →
    step t = .next u → u.faultCause = .noFault

/-- R102: a mask bit is one cell, bit `7 - k` at offset `(k mod 3, k div 3)`, and the walk's list has the mask's cells in
order of `k`, each once, never at offset (2, 2).
The spec marks this as derived from its other rules. -/
def Obligations.WalkVisitsTheMaskCellsOnce : Prop :=
  ∀ (m : Byte) (pos : BitVec 8),
    cells m pos = ((List.range 8).filter fun k => m.getLsbD (7 - k)).map
      (fun k => (pos.toNat % 8 + k % 3, pos.toNat / 8 + k / 3)) ∧
    (cells m pos).Nodup ∧ (cells m pos).length = popcount m ∧
    (pos.toNat % 8 + 2, pos.toNat / 8 + 2) ∉ cells m pos

/-- R120 (R118, R119): a DRAW in range lights exactly the piece's pixels, cell (c, r) at bit c of FB[r], and writes FB
only; a DRAW with a cell outside the buffer draws nothing and raises DRAW_RANGE with its word. -/
def Obligations.DrawLightsThePieceOrHalts : Prop :=
  (∀ id pos, encode (.draw id pos) &&& 0xE000#16 = 0x6000#16) ∧
  ∀ (s : State) (id : BitVec 5) (pos : BitVec 8),
    (drawingInRange (s.rom id) pos →
      ∃ t, exec (.draw id pos) s = .next t ∧
        (∀ c r, c < 8 → r < 20 →
          (gridBit t.fb r c = true ↔ gridBit s.fb r c = true ∨ pieceCell (s.rom id) pos c r)) ∧
        t = { s with fb := t.fb }) ∧
    (¬ drawingInRange (s.rom id) pos →
      exec (.draw id pos) s = .next { s with faultCause := .drawRange, faultCmd := encode (.draw id pos) })

/-- R121: at the sentinel 0x8B every mask is inside the buffer, in columns 17 to 19 and pixel rows 3 to 5, and outside the
board: DRAW never faults there, CHECK of a non-empty mask gives 0 and COMMIT of one faults. The empty mask has no cell
and is placed there as anywhere, to no effect (R112, R116).
The spec marks this as derived from its other rules. -/
def Obligations.PreviewIsInsideTheBufferAndOffTheBoard : Prop :=
  Config.previewPos = 0x8B#8 ∧
  (∀ (m : Byte) (c r : Nat), pieceCell m 0x8B#8 c r → 17 ≤ r ∧ r ≤ 19 ∧ 3 ≤ c ∧ c ≤ 5) ∧
  (∀ (s : State) (id : BitVec 5), ∃ t, exec (.draw id 0x8B#8) s = .next t ∧ t = { s with fb := t.fb }) ∧
  (∀ (s : State) (id : BitVec 5), s.rom id ≠ 0x00#8 →
    exec (.check id 0x8B#8) s = .next { s with ok := false } ∧
    ∃ t, exec (.commit id 0x8B#8) s = .next t ∧ t.faultCause = .commitPrecondition) ∧
  (∀ (s : State) (id : BitVec 5), s.rom id = 0x00#8 →
    exec (.check id 0x8B#8) s = .next { s with ok := true } ∧ exec (.commit id 0x8B#8) s = .next s)

/-! ### Sweep -/

/-- R147: the loop equals the compaction. With F the rows full at the start and N the others in order, BOARD becomes
|F| empty rows and then N; LINES = |F|; SCORE = min(SCORE + |F|, 2^SCORE_WIDTH - 1); nothing else changes.
SCORE fits its width at the start: an invariant of the machine.
The spec marks this as derived from its other rules. -/
def Obligations.SweepEqualsCompaction : Prop :=
  ∀ s : State, scoreFits s → ∃ t, exec .sweep s = .next t ∧
    t.board.toList = List.replicate (16 - (rowsKept s.board).length) 0x00#8 ++ rowsKept s.board ∧
    t.lines.toNat = 16 - (rowsKept s.board).length ∧
    t.score = min (s.score + (16 - (rowsKept s.board).length)) (2 ^ s.params.scoreWidth - 1) ∧
    t = { s with board := t.board, score := t.score, lines := t.lines }

/-- R145: the shift of a cleared row equals the simultaneous assignment, and leaves the rows below it.
The spec marks this as derived from its other rules. -/
def Obligations.RowShiftIsSimultaneous : Prop :=
  ∀ (b : Board) (cleared k : Nat) (_ : cleared < 16) (h : k < 16),
    (k = 0 → (shiftDown b cleared)[k] = 0x00#8) ∧
    (1 ≤ k → k ≤ cleared → (shiftDown b cleared)[k] = b[k - 1]) ∧
    (cleared < k → (shiftDown b cleared)[k] = b[k])

/-- R56: a second SWEEP clears nothing: BOARD and SCORE are unchanged and LINES becomes 0.
The spec marks this as derived from its other rules. -/
def Obligations.SecondSweepClearsNothing : Prop :=
  ∀ s : State, ∃ t, exec .sweep s = .next t ∧ exec .sweep t = .next { t with lines := 0 }

/-- R148 (1): with rows 14 and 15 full and all others not, SWEEP clears exactly these, shifts the rows above down by two,
zeroes the top two rows and adds exactly 2 to SCORE (short of saturation).
The spec marks this as derived from its other rules. -/
def Obligations.SweepClearsTheTwoBottomRows : Prop :=
  ∀ s : State, s.board[14] = 0xFF#8 → s.board[15] = 0xFF#8 → (∀ r, (h : r < 14) → s.board[r] ≠ 0xFF#8) →
    s.score + 2 < 2 ^ s.params.scoreWidth →
    ∃ t, exec .sweep s = .next t ∧
      (∀ r, (h : r < 14) → t.board[r + 2] = s.board[r]) ∧ t.board[0] = 0x00#8 ∧ t.board[1] = 0x00#8 ∧
      t.score = s.score + 2 ∧ t.lines = 2

/-- R148 (2): the rows one COMMIT completes are all cleared by the SWEEP after it, one SCORE increment each (short of
saturation), and none is left full.
The spec marks this as derived from its other rules. -/
def Obligations.SweepClearsWhatACommitCompleted : Prop :=
  ∀ (s : State) (id : BitVec 5) (pos : BitVec 8), placementLegal (s.rom id) pos s.board →
    (∀ r, (h : r < 16) → s.board[r] ≠ 0xFF#8) → s.score + 16 < 2 ^ s.params.scoreWidth →
    ∃ t u, exec (.commit id pos) s = .next t ∧ exec .sweep t = .next u ∧
      u.lines.toNat = (t.board.toList.filter (· = 0xFF#8)).length ∧
      u.score = s.score + (t.board.toList.filter (· = 0xFF#8)).length ∧
      (∀ r, (h : r < 16) → u.board[r] ≠ 0xFF#8)

/-- R146: each clear removes exactly 8 occupied cells, so at most 16 rows are cleared.
The spec marks this as derived from its other rules. -/
def Obligations.SweepRemovesEightCellsPerLine : Prop :=
  ∀ s : State, ∃ t, exec .sweep s = .next t ∧
    litCount s.board = litCount t.board + 8 * t.lines.toNat ∧ t.lines.toNat ≤ 16

/-! ### Renderer -/

/-- R162: FB_CLEAR, word 0x0002, darkens the whole frame buffer and writes nothing else. -/
def Obligations.FbClearDarkensEveryPixel : Prop :=
  encode .fbClear = 0x0002#16 ∧
  ∀ s : State, ∃ t, exec .fbClear s = .next t ∧ (∀ x, (h : x < 20) → t.fb[x] = 0x00#8) ∧ t = { s with fb := t.fb }

/-- R163, R161: FB_SET of a column below 20 lights that one pixel and darkens none; of 20 to 31 it raises DRAW_RANGE with
its word and lights nothing. -/
def Obligations.FbSetLightsOnePixelOrHalts : Prop :=
  (∀ x y, encode (.fbSet x y) &&& 0xE0F8#16 = 0x8000#16) ∧
  ∀ (s : State) (x : BitVec 5) (y : BitVec 3),
    (x.toNat < 20 → ∃ t, exec (.fbSet x y) s = .next t ∧
      (∀ i b, i < 20 → b < 8 →
        (gridBit t.fb i b = true ↔ gridBit s.fb i b = true ∨ (i = x.toNat ∧ b = y.toNat))) ∧
      t = { s with fb := t.fb }) ∧
    (20 ≤ x.toNat →
      exec (.fbSet x y) s = .next { s with faultCause := .drawRange, faultCmd := encode (.fbSet x y) })

/-- R164: FB_BLIT, word 0x0003, ORs each board row into its column, keeps columns 16 to 19, and writes FB only. -/
def Obligations.FbBlitOrsTheBoardIntoTheFrame : Prop :=
  encode .fbBlit = 0x0003#16 ∧
  ∀ s : State, ∃ t, exec .fbBlit s = .next t ∧
    (∀ r, (h : r < 16) → t.fb[r] = s.fb[r] ||| s.board[r]) ∧
    (∀ x, (h : x < 20) → 16 ≤ x → t.fb[x] = s.fb[x]) ∧ t = { s with fb := t.fb }

/-- R172 (R171, R174): FLUSH, word 0x0005, sends INIT_SEQ as command bytes where the policy asks
for it and sets INIT_SENT, then the 20 bytes of FB as data bytes, column 0 first; it writes nothing else. -/
def Obligations.FlushSendsInitThenTheWholeFrame : Prop :=
  encode .flush = 0x0005#16 ∧
  ∀ s : State, ∃ t, exec .flush s = .next t ∧
    t.trace = s.trace ++
      (if s.params.initPolicy = .everyFlush ∨ s.initSent = false then
        s.params.initSeq.map (fun b => ⟨.command, b⟩) else []) ++
      (List.finRange 20).map (fun x => ⟨.data, s.fb[x]⟩) ∧
    t.initSent = true ∧ SinkTag.command.dc = 0 ∧ SinkTag.data.dc = 1 ∧
    t = { s with trace := t.trace, initSent := t.initSent }

/-- R166: after FB_CLEAR and FB_BLIT the frame is the board: pixel (r, c) is lit exactly when cell (c, r) is occupied,
and columns 16 to 19 are dark.
The spec marks this as derived from its other rules. -/
def Obligations.ClearedFrameShowsTheBoard : Prop :=
  ∀ s : State, ∃ t u, exec .fbClear s = .next t ∧ exec .fbBlit t = .next u ∧
    (∀ r c, r < 16 → c < 8 → gridBit u.fb r c = gridBit s.board r c) ∧
    (∀ x c, 16 ≤ x → x < 20 → c < 8 → gridBit u.fb x c = false)

/-- R165: the drawing commands of one pass commute, where none faults.
The spec marks this as derived from its other rules. -/
def Obligations.DrawingCommandsCommute : Prop :=
  ∀ (s a b ab ba : State) (i j : Instr), isDrawing i = true → isDrawing j = true → s.faultCause = .noFault →
    exec i s = .next a → exec j a = .next ab → exec j s = .next b → exec i b = .next ba →
    ab.faultCause = .noFault → ab = ba

/-- R254, R166: nothing of FB from before FB_CLEAR is left after it. Two machines that differ in FB alone, do the same
things with no FLUSH, no read of FB and no reset, and then FB_CLEAR, are the same machine, if no fault is recorded. -/
def Obligations.FrameClearForgetsTheOldFrame : Prop :=
  ∀ (s t s' t' : State) (acts rest : List HostAction),
    agreeButFb s t → s.port = acts ++ .command (encode .fbClear) :: rest →
    (∀ act ∈ acts, hidesFrame act = true) →
    core.run (acts.length + 1) s = .next s' → core.run (acts.length + 1) t = .next t' →
    s'.faultCause = .noFault → s' = t'

/-! ### Observation port -/

/-- R33, R54: the whole map of the observation port, and that a read changes nothing of the block. The two bytes of SCORE
are those of a SCORE that fits its width, an invariant of the machine. -/
def Obligations.ObservationPortShowsTheMap : Prop :=
  ∀ (s : State) (a : BitVec 6),
    (∀ (h : a.toNat < 16), observe s a = s.board[a.toNat]) ∧
    (∀ (_ : 16 ≤ a.toNat) (h : a.toNat - 16 < 20), observe s a = s.fb[a.toNat - 16]) ∧
    (a.toNat = 0x24 → observe s a = s.status) ∧
    (a.toNat = 0x25 → scoreFits s → (observe s a).toNat = s.score % 256) ∧
    (a.toNat = 0x26 → scoreFits s → (observe s a).toNat = s.score / 256 % 256) ∧
    (a.toNat = 0x26 → s.params.scoreWidth ≤ 8 → observe s a = 0x00#8) ∧
    (a.toNat = 0x27 → (observe s a).toNat = s.faultCmd.toNat % 256) ∧
    (a.toNat = 0x28 → (observe s a).toNat = s.faultCmd.toNat / 256) ∧
    (0x29 ≤ a.toNat → observe s a = 0x00#8) ∧
    (∀ rest, s.port = .observe a :: rest →
      step s = .next { s with port := rest, replies := s.replies ++ [observe s a] })

/-- R37: STATUS, read at address 0x24, is OK, LINES and FAULT_CAUSE side by side, and 0x00 after reset. -/
def Obligations.StatusHoldsOkLinesAndCause : Prop :=
  State.reset.status = 0x00#8 ∧
  ∀ s : State,
    observe s 0x24#6 = s.status ∧
    s.status.getLsbD 0 = s.ok ∧ s.status.extractLsb' 1 5 = s.lines ∧ s.status.extractLsb' 6 2 = s.faultCause.code

/-! ### Whole-machine rules -/

/-- R24: only COMMIT, SWEEP and GAME_CLEAR write BOARD. -/
def Obligations.OnlyThreeCommandsWriteBoard : Prop :=
  ∀ (s t : State) (w : Word) (rest : List HostAction), s.port = .command w :: rest → step s = .next t →
    t.board ≠ s.board →
      decode w = .ok .gameClear ∨ decode w = .ok .sweep ∨ ∃ id pos, decode w = .ok (.commit id pos)

/-- Each register's only writers among the command words: BOARD (R24), SCORE (R25), OK (R26), LINES (R36), FB (R50, R120,
R162 to R164), INIT_SENT (R29, R172), the sink trace (R34), the fault registers (R30, R222: a fault, and only of a block
that ran); the parameters have none (R31, R253). -/
def Obligations.EachRegisterHasItsWriters : Prop :=
  ∀ (s t : State) (w : Word) (rest : List HostAction), s.port = .command w :: rest → step s = .next t →
    (t.board ≠ s.board →
      decode w = .ok .gameClear ∨ decode w = .ok .sweep ∨ ∃ id pos, decode w = .ok (.commit id pos)) ∧
    (t.ok ≠ s.ok → ∃ id pos, decode w = .ok (.check id pos)) ∧
    (t.lines ≠ s.lines → decode w = .ok .sweep) ∧
    (t.score ≠ s.score → decode w = .ok .sweep ∨ decode w = .ok .gameClear) ∧
    (t.fb ≠ s.fb → decode w = .ok .fbClear ∨ decode w = .ok .fbBlit ∨
      (∃ id pos, decode w = .ok (.draw id pos)) ∨ ∃ x y, decode w = .ok (.fbSet x y)) ∧
    (t.initSent ≠ s.initSent → decode w = .ok .flush) ∧
    (t.trace ≠ s.trace → decode w = .ok .flush) ∧
    (t.faultCause ≠ s.faultCause ∨ t.faultCmd ≠ s.faultCmd →
      s.faultCause = .noFault ∧ t.faultCause ≠ .noFault ∧ t.faultCmd = w ∧
        ((∃ e, decode w = .error e) ∨ (∃ id pos, decode w = .ok (.commit id pos)) ∨
          (∃ id pos, decode w = .ok (.draw id pos)) ∨ ∃ x y, decode w = .ok (.fbSet x y))) ∧
    t.params = s.params ∧ t.replies = s.replies ∧ t.port = rest

/-- R25: SCORE never wraps and never decreases except by GAME_CLEAR or reset. -/
def Obligations.ScoreDecreasesOnlyByClearOrReset : Prop :=
  ∀ (s t : State), step s = .next t → t.score < s.score →
    (∃ rest, s.port = .reset :: rest) ∨ (∃ w rest, s.port = .command w :: rest ∧ decode w = .ok .gameClear)

/-- R31, R253: no step, reset among them, changes SHAPE_ROM, SCORE_WIDTH, INIT_SEQ or INIT_POLICY. -/
def Obligations.EveryStepKeepsTheParameters : Prop :=
  ∀ s t : State, step s = .next t → t.params = s.params

/-- R34: the sink trace is append-only until reset. -/
def Obligations.SinkTraceOnlyGrows : Prop :=
  ∀ s t : State, step s = .next t → (∃ rest, s.port = .reset :: rest) ∨ ∃ more, t.trace = s.trace ++ more

/-- R56: repeating a command with nothing between changes nothing more, for the idempotent seven.
The spec marks this as derived from its other rules. -/
def Obligations.SevenCommandsAreIdempotent : Prop :=
  ∀ (s : State) (i : Instr), i ≠ .sweep → i ≠ .flush → (∀ id pos, i ≠ .commit id pos) →
    ∃ t, exec i s = .next t ∧ exec i t = .next t

/-- R24, R25, R26, R30, R36 (who writes them), R116, R142, R164, R172 (their "Written" lines): what is in the frame buffer, sent to the sink or read by the host never reaches BOARD, SCORE, OK, LINES
or the fault registers: machines that agree on these, the ports and the parameters agree on them after a step. -/
def Obligations.FrameNeverReachesTheGame : Prop :=
  ∀ (s t s' t' : State),
    t = { s with fb := t.fb, trace := t.trace, initSent := t.initSent, replies := t.replies } →
    step s = .next s' → step t = .next t' →
    t' = { s' with fb := t'.fb, trace := t'.trace, initSent := t'.initSent, replies := t'.replies }

/-- The invariant of the machine is kept by every step: SCORE within its SCORE_WIDTH bits (R25, R143), LINES at most 16
(R36), a fault record that a fault wrote (R30, R220), and a sink trace of whole frames with INIT_SEQ before the first of
them under INIT_POLICY = ONCE and before each under EVERY_FLUSH (R171 to R174). -/
def Obligations.EveryStepKeepsTheInvariant : Prop := ∀ s t : State, Inv s → step s = .next t → Inv t

/-- The invariant holds right after reset. -/
def Obligations.ResetMeetsTheInvariant : Prop := Inv State.reset

end
end

