-- ==== Sys2Proof/Laws/Decode.lean ====
section
/-!
SUPPORT. The fields of a word and the three formats as numbers, and a word as its fields side by side.
-/

namespace Sys2Proof

theorem fieldOp_toNat (w : Word) : (fieldOp w).toNat = w.toNat / 8192 := by
  have := w.isLt
  simp only [fieldOp, BitVec.extractLsb'_toNat, Nat.shiftRight_eq_div_pow]
  norm_num
  omega

theorem fieldHigh_toNat (w : Word) : (fieldHigh w).toNat = w.toNat / 256 % 32 := by
  simp [fieldHigh, BitVec.extractLsb'_toNat, Nat.shiftRight_eq_div_pow]

theorem fieldLow_toNat (w : Word) : (fieldLow w).toNat = w.toNat % 256 := by
  simp [fieldLow, BitVec.extractLsb'_toNat]

theorem fieldZ_toNat (w : Word) : (fieldZ w).toNat = w.toNat / 8 % 32 := by
  simp [fieldZ, BitVec.extractLsb'_toNat, Nat.shiftRight_eq_div_pow]

theorem fieldY_toNat (w : Word) : (fieldY w).toNat = w.toNat % 8 := by
  simp [fieldY, BitVec.extractLsb'_toNat]

theorem formatP_toNat (op : BitVec 3) (id : BitVec 5) (pos : BitVec 8) :
    (formatP op id pos).toNat = op.toNat * 8192 + id.toNat * 256 + pos.toNat := by
  have h1 := id.isLt
  have h2 := pos.isLt
  unfold formatP
  rw [BitVec.toNat_append, BitVec.toNat_append, ← Nat.shiftLeft_add_eq_or_of_lt h2,
    ← Nat.shiftLeft_add_eq_or_of_lt h1, Nat.shiftLeft_eq, Nat.shiftLeft_eq]
  omega

theorem formatF_toNat (x : BitVec 5) (y : BitVec 3) : (formatF x y).toNat = 4 * 8192 + x.toNat * 256 + y.toNat := by
  revert x y; decide

theorem formatS_toNat (f : BitVec 8) : (formatS f).toNat = f.toNat := by
  revert f; decide

/-- A word is its fields OP, ID and POS side by side (R71). -/
theorem word_eq_fields (w : Word) : w = formatP (fieldOp w) (fieldHigh w) (fieldLow w) := by
  apply BitVec.eq_of_toNat_eq
  have := w.isLt
  rw [formatP_toNat, fieldOp_toNat, fieldHigh_toNat, fieldLow_toNat]
  omega

end Sys2Proof
end

