-- ==== Sys2Proof/Laws/State.lean ====
section
/-!
SUPPORT. What each setter of the state leaves in each field, so that no proof unfolds a record update.
-/

namespace Sys2Proof.Machine

variable (s : State)

@[simp] theorem State.setBoard_board (v : Board) : (s.setBoard v).board = v := rfl
@[simp] theorem State.setBoard_score (v : Board) : (s.setBoard v).score = s.score := rfl
@[simp] theorem State.setBoard_ok (v : Board) : (s.setBoard v).ok = s.ok := rfl
@[simp] theorem State.setBoard_lines (v : Board) : (s.setBoard v).lines = s.lines := rfl
@[simp] theorem State.setBoard_fb (v : Board) : (s.setBoard v).fb = s.fb := rfl
@[simp] theorem State.setBoard_initSent (v : Board) : (s.setBoard v).initSent = s.initSent := rfl
@[simp] theorem State.setBoard_faultCause (v : Board) : (s.setBoard v).faultCause = s.faultCause := rfl
@[simp] theorem State.setBoard_faultCmd (v : Board) : (s.setBoard v).faultCmd = s.faultCmd := rfl
@[simp] theorem State.setBoard_trace (v : Board) : (s.setBoard v).trace = s.trace := rfl
@[simp] theorem State.setBoard_params (v : Board) : (s.setBoard v).params = s.params := rfl
@[simp] theorem State.setBoard_port (v : Board) : (s.setBoard v).port = s.port := rfl
@[simp] theorem State.setBoard_replies (v : Board) : (s.setBoard v).replies = s.replies := rfl
@[simp] theorem State.setBoard_draws (v : Board) : (s.setBoard v).draws = s.draws := rfl

@[simp] theorem State.setScore_board (v : Nat) : (s.setScore v).board = s.board := rfl
@[simp] theorem State.setScore_score (v : Nat) : (s.setScore v).score = v := rfl
@[simp] theorem State.setScore_ok (v : Nat) : (s.setScore v).ok = s.ok := rfl
@[simp] theorem State.setScore_lines (v : Nat) : (s.setScore v).lines = s.lines := rfl
@[simp] theorem State.setScore_fb (v : Nat) : (s.setScore v).fb = s.fb := rfl
@[simp] theorem State.setScore_initSent (v : Nat) : (s.setScore v).initSent = s.initSent := rfl
@[simp] theorem State.setScore_faultCause (v : Nat) : (s.setScore v).faultCause = s.faultCause := rfl
@[simp] theorem State.setScore_faultCmd (v : Nat) : (s.setScore v).faultCmd = s.faultCmd := rfl
@[simp] theorem State.setScore_trace (v : Nat) : (s.setScore v).trace = s.trace := rfl
@[simp] theorem State.setScore_params (v : Nat) : (s.setScore v).params = s.params := rfl
@[simp] theorem State.setScore_port (v : Nat) : (s.setScore v).port = s.port := rfl
@[simp] theorem State.setScore_replies (v : Nat) : (s.setScore v).replies = s.replies := rfl
@[simp] theorem State.setScore_draws (v : Nat) : (s.setScore v).draws = s.draws := rfl

@[simp] theorem State.setOk_board (v : Bool) : (s.setOk v).board = s.board := rfl
@[simp] theorem State.setOk_score (v : Bool) : (s.setOk v).score = s.score := rfl
@[simp] theorem State.setOk_ok (v : Bool) : (s.setOk v).ok = v := rfl
@[simp] theorem State.setOk_lines (v : Bool) : (s.setOk v).lines = s.lines := rfl
@[simp] theorem State.setOk_fb (v : Bool) : (s.setOk v).fb = s.fb := rfl
@[simp] theorem State.setOk_initSent (v : Bool) : (s.setOk v).initSent = s.initSent := rfl
@[simp] theorem State.setOk_faultCause (v : Bool) : (s.setOk v).faultCause = s.faultCause := rfl
@[simp] theorem State.setOk_faultCmd (v : Bool) : (s.setOk v).faultCmd = s.faultCmd := rfl
@[simp] theorem State.setOk_trace (v : Bool) : (s.setOk v).trace = s.trace := rfl
@[simp] theorem State.setOk_params (v : Bool) : (s.setOk v).params = s.params := rfl
@[simp] theorem State.setOk_port (v : Bool) : (s.setOk v).port = s.port := rfl
@[simp] theorem State.setOk_replies (v : Bool) : (s.setOk v).replies = s.replies := rfl
@[simp] theorem State.setOk_draws (v : Bool) : (s.setOk v).draws = s.draws := rfl

@[simp] theorem State.setLines_board (v : BitVec 5) : (s.setLines v).board = s.board := rfl
@[simp] theorem State.setLines_score (v : BitVec 5) : (s.setLines v).score = s.score := rfl
@[simp] theorem State.setLines_ok (v : BitVec 5) : (s.setLines v).ok = s.ok := rfl
@[simp] theorem State.setLines_lines (v : BitVec 5) : (s.setLines v).lines = v := rfl
@[simp] theorem State.setLines_fb (v : BitVec 5) : (s.setLines v).fb = s.fb := rfl
@[simp] theorem State.setLines_initSent (v : BitVec 5) : (s.setLines v).initSent = s.initSent := rfl
@[simp] theorem State.setLines_faultCause (v : BitVec 5) : (s.setLines v).faultCause = s.faultCause := rfl
@[simp] theorem State.setLines_faultCmd (v : BitVec 5) : (s.setLines v).faultCmd = s.faultCmd := rfl
@[simp] theorem State.setLines_trace (v : BitVec 5) : (s.setLines v).trace = s.trace := rfl
@[simp] theorem State.setLines_params (v : BitVec 5) : (s.setLines v).params = s.params := rfl
@[simp] theorem State.setLines_port (v : BitVec 5) : (s.setLines v).port = s.port := rfl
@[simp] theorem State.setLines_replies (v : BitVec 5) : (s.setLines v).replies = s.replies := rfl
@[simp] theorem State.setLines_draws (v : BitVec 5) : (s.setLines v).draws = s.draws := rfl

@[simp] theorem State.setFb_board (v : FrameBuffer) : (s.setFb v).board = s.board := rfl
@[simp] theorem State.setFb_score (v : FrameBuffer) : (s.setFb v).score = s.score := rfl
@[simp] theorem State.setFb_ok (v : FrameBuffer) : (s.setFb v).ok = s.ok := rfl
@[simp] theorem State.setFb_lines (v : FrameBuffer) : (s.setFb v).lines = s.lines := rfl
@[simp] theorem State.setFb_fb (v : FrameBuffer) : (s.setFb v).fb = v := rfl
@[simp] theorem State.setFb_initSent (v : FrameBuffer) : (s.setFb v).initSent = s.initSent := rfl
@[simp] theorem State.setFb_faultCause (v : FrameBuffer) : (s.setFb v).faultCause = s.faultCause := rfl
@[simp] theorem State.setFb_faultCmd (v : FrameBuffer) : (s.setFb v).faultCmd = s.faultCmd := rfl
@[simp] theorem State.setFb_trace (v : FrameBuffer) : (s.setFb v).trace = s.trace := rfl
@[simp] theorem State.setFb_params (v : FrameBuffer) : (s.setFb v).params = s.params := rfl
@[simp] theorem State.setFb_port (v : FrameBuffer) : (s.setFb v).port = s.port := rfl
@[simp] theorem State.setFb_replies (v : FrameBuffer) : (s.setFb v).replies = s.replies := rfl
@[simp] theorem State.setFb_draws (v : FrameBuffer) : (s.setFb v).draws = s.draws := rfl

@[simp] theorem State.setInitSent_board (v : Bool) : (s.setInitSent v).board = s.board := rfl
@[simp] theorem State.setInitSent_score (v : Bool) : (s.setInitSent v).score = s.score := rfl
@[simp] theorem State.setInitSent_ok (v : Bool) : (s.setInitSent v).ok = s.ok := rfl
@[simp] theorem State.setInitSent_lines (v : Bool) : (s.setInitSent v).lines = s.lines := rfl
@[simp] theorem State.setInitSent_fb (v : Bool) : (s.setInitSent v).fb = s.fb := rfl
@[simp] theorem State.setInitSent_initSent (v : Bool) : (s.setInitSent v).initSent = v := rfl
@[simp] theorem State.setInitSent_faultCause (v : Bool) : (s.setInitSent v).faultCause = s.faultCause := rfl
@[simp] theorem State.setInitSent_faultCmd (v : Bool) : (s.setInitSent v).faultCmd = s.faultCmd := rfl
@[simp] theorem State.setInitSent_trace (v : Bool) : (s.setInitSent v).trace = s.trace := rfl
@[simp] theorem State.setInitSent_params (v : Bool) : (s.setInitSent v).params = s.params := rfl
@[simp] theorem State.setInitSent_port (v : Bool) : (s.setInitSent v).port = s.port := rfl
@[simp] theorem State.setInitSent_replies (v : Bool) : (s.setInitSent v).replies = s.replies := rfl
@[simp] theorem State.setInitSent_draws (v : Bool) : (s.setInitSent v).draws = s.draws := rfl

@[simp] theorem State.setFault_board (c : FaultCause) (w : Word) : (s.setFault c w).board = s.board := rfl
@[simp] theorem State.setFault_score (c : FaultCause) (w : Word) : (s.setFault c w).score = s.score := rfl
@[simp] theorem State.setFault_ok (c : FaultCause) (w : Word) : (s.setFault c w).ok = s.ok := rfl
@[simp] theorem State.setFault_lines (c : FaultCause) (w : Word) : (s.setFault c w).lines = s.lines := rfl
@[simp] theorem State.setFault_fb (c : FaultCause) (w : Word) : (s.setFault c w).fb = s.fb := rfl
@[simp] theorem State.setFault_initSent (c : FaultCause) (w : Word) : (s.setFault c w).initSent = s.initSent := rfl
@[simp] theorem State.setFault_faultCause (c : FaultCause) (w : Word) : (s.setFault c w).faultCause = c := rfl
@[simp] theorem State.setFault_faultCmd (c : FaultCause) (w : Word) : (s.setFault c w).faultCmd = w := rfl
@[simp] theorem State.setFault_trace (c : FaultCause) (w : Word) : (s.setFault c w).trace = s.trace := rfl
@[simp] theorem State.setFault_params (c : FaultCause) (w : Word) : (s.setFault c w).params = s.params := rfl
@[simp] theorem State.setFault_port (c : FaultCause) (w : Word) : (s.setFault c w).port = s.port := rfl
@[simp] theorem State.setFault_replies (c : FaultCause) (w : Word) : (s.setFault c w).replies = s.replies := rfl
@[simp] theorem State.setFault_draws (c : FaultCause) (w : Word) : (s.setFault c w).draws = s.draws := rfl

@[simp] theorem State.setTrace_board (v : List SinkEvent) : (s.setTrace v).board = s.board := rfl
@[simp] theorem State.setTrace_score (v : List SinkEvent) : (s.setTrace v).score = s.score := rfl
@[simp] theorem State.setTrace_ok (v : List SinkEvent) : (s.setTrace v).ok = s.ok := rfl
@[simp] theorem State.setTrace_lines (v : List SinkEvent) : (s.setTrace v).lines = s.lines := rfl
@[simp] theorem State.setTrace_fb (v : List SinkEvent) : (s.setTrace v).fb = s.fb := rfl
@[simp] theorem State.setTrace_initSent (v : List SinkEvent) : (s.setTrace v).initSent = s.initSent := rfl
@[simp] theorem State.setTrace_faultCause (v : List SinkEvent) : (s.setTrace v).faultCause = s.faultCause := rfl
@[simp] theorem State.setTrace_faultCmd (v : List SinkEvent) : (s.setTrace v).faultCmd = s.faultCmd := rfl
@[simp] theorem State.setTrace_trace (v : List SinkEvent) : (s.setTrace v).trace = v := rfl
@[simp] theorem State.setTrace_params (v : List SinkEvent) : (s.setTrace v).params = s.params := rfl
@[simp] theorem State.setTrace_port (v : List SinkEvent) : (s.setTrace v).port = s.port := rfl
@[simp] theorem State.setTrace_replies (v : List SinkEvent) : (s.setTrace v).replies = s.replies := rfl
@[simp] theorem State.setTrace_draws (v : List SinkEvent) : (s.setTrace v).draws = s.draws := rfl

@[simp] theorem State.setPort_board (v : List HostAction) : (s.setPort v).board = s.board := rfl
@[simp] theorem State.setPort_score (v : List HostAction) : (s.setPort v).score = s.score := rfl
@[simp] theorem State.setPort_ok (v : List HostAction) : (s.setPort v).ok = s.ok := rfl
@[simp] theorem State.setPort_lines (v : List HostAction) : (s.setPort v).lines = s.lines := rfl
@[simp] theorem State.setPort_fb (v : List HostAction) : (s.setPort v).fb = s.fb := rfl
@[simp] theorem State.setPort_initSent (v : List HostAction) : (s.setPort v).initSent = s.initSent := rfl
@[simp] theorem State.setPort_faultCause (v : List HostAction) : (s.setPort v).faultCause = s.faultCause := rfl
@[simp] theorem State.setPort_faultCmd (v : List HostAction) : (s.setPort v).faultCmd = s.faultCmd := rfl
@[simp] theorem State.setPort_trace (v : List HostAction) : (s.setPort v).trace = s.trace := rfl
@[simp] theorem State.setPort_params (v : List HostAction) : (s.setPort v).params = s.params := rfl
@[simp] theorem State.setPort_port (v : List HostAction) : (s.setPort v).port = v := rfl
@[simp] theorem State.setPort_replies (v : List HostAction) : (s.setPort v).replies = s.replies := rfl
@[simp] theorem State.setPort_draws (v : List HostAction) : (s.setPort v).draws = s.draws := rfl

@[simp] theorem State.setReplies_board (v : List Byte) : (s.setReplies v).board = s.board := rfl
@[simp] theorem State.setReplies_score (v : List Byte) : (s.setReplies v).score = s.score := rfl
@[simp] theorem State.setReplies_ok (v : List Byte) : (s.setReplies v).ok = s.ok := rfl
@[simp] theorem State.setReplies_lines (v : List Byte) : (s.setReplies v).lines = s.lines := rfl
@[simp] theorem State.setReplies_fb (v : List Byte) : (s.setReplies v).fb = s.fb := rfl
@[simp] theorem State.setReplies_initSent (v : List Byte) : (s.setReplies v).initSent = s.initSent := rfl
@[simp] theorem State.setReplies_faultCause (v : List Byte) : (s.setReplies v).faultCause = s.faultCause := rfl
@[simp] theorem State.setReplies_faultCmd (v : List Byte) : (s.setReplies v).faultCmd = s.faultCmd := rfl
@[simp] theorem State.setReplies_trace (v : List Byte) : (s.setReplies v).trace = s.trace := rfl
@[simp] theorem State.setReplies_params (v : List Byte) : (s.setReplies v).params = s.params := rfl
@[simp] theorem State.setReplies_port (v : List Byte) : (s.setReplies v).port = s.port := rfl
@[simp] theorem State.setReplies_replies (v : List Byte) : (s.setReplies v).replies = v := rfl
@[simp] theorem State.setReplies_draws (v : List Byte) : (s.setReplies v).draws = s.draws := rfl

@[simp] theorem State.setDraws_board (v : Nat) : (s.setDraws v).board = s.board := rfl
@[simp] theorem State.setDraws_score (v : Nat) : (s.setDraws v).score = s.score := rfl
@[simp] theorem State.setDraws_ok (v : Nat) : (s.setDraws v).ok = s.ok := rfl
@[simp] theorem State.setDraws_lines (v : Nat) : (s.setDraws v).lines = s.lines := rfl
@[simp] theorem State.setDraws_fb (v : Nat) : (s.setDraws v).fb = s.fb := rfl
@[simp] theorem State.setDraws_initSent (v : Nat) : (s.setDraws v).initSent = s.initSent := rfl
@[simp] theorem State.setDraws_faultCause (v : Nat) : (s.setDraws v).faultCause = s.faultCause := rfl
@[simp] theorem State.setDraws_faultCmd (v : Nat) : (s.setDraws v).faultCmd = s.faultCmd := rfl
@[simp] theorem State.setDraws_trace (v : Nat) : (s.setDraws v).trace = s.trace := rfl
@[simp] theorem State.setDraws_params (v : Nat) : (s.setDraws v).params = s.params := rfl
@[simp] theorem State.setDraws_port (v : Nat) : (s.setDraws v).port = s.port := rfl
@[simp] theorem State.setDraws_replies (v : Nat) : (s.setDraws v).replies = s.replies := rfl
@[simp] theorem State.setDraws_draws (v : Nat) : (s.setDraws v).draws = v := rfl

/-! The last write of a field stands. -/

@[simp] theorem State.setBoard_setBoard (v w : Board) : (s.setBoard v).setBoard w = s.setBoard w := rfl
@[simp] theorem State.setScore_setScore (v w : Nat) : (s.setScore v).setScore w = s.setScore w := rfl
@[simp] theorem State.setOk_setOk (v w : Bool) : (s.setOk v).setOk w = s.setOk w := rfl
@[simp] theorem State.setLines_setLines (v w : BitVec 5) : (s.setLines v).setLines w = s.setLines w := rfl
@[simp] theorem State.setFb_setFb (v w : FrameBuffer) : (s.setFb v).setFb w = s.setFb w := rfl
@[simp] theorem State.setInitSent_setInitSent (v w : Bool) : (s.setInitSent v).setInitSent w = s.setInitSent w := rfl
@[simp] theorem State.setTrace_setTrace (v w : List SinkEvent) : (s.setTrace v).setTrace w = s.setTrace w := rfl
@[simp] theorem State.setPort_setPort (v w : List HostAction) : (s.setPort v).setPort w = s.setPort w := rfl
@[simp] theorem State.setReplies_setReplies (v w : List Byte) : (s.setReplies v).setReplies w = s.setReplies w := rfl
@[simp] theorem State.setDraws_setDraws (v w : Nat) : (s.setDraws v).setDraws w = s.setDraws w := rfl
@[simp] theorem State.setFault_setFault (c d : FaultCause) (v w : Word) :
    (s.setFault c v).setFault d w = s.setFault d w := rfl

/-! Two states are equal when their fields are. -/

theorem State.ext_fields {s t : State} (h1 : s.board = t.board) (h2 : s.score = t.score) (h3 : s.ok = t.ok)
    (h4 : s.lines = t.lines) (h5 : s.fb = t.fb) (h6 : s.initSent = t.initSent) (h7 : s.faultCause = t.faultCause)
    (h8 : s.faultCmd = t.faultCmd) (h9 : s.trace = t.trace) (h10 : s.params = t.params) (h11 : s.port = t.port)
    (h12 : s.replies = t.replies) (h13 : s.draws = t.draws) : s = t := by
  cases s; cases t; simp_all

end Sys2Proof.Machine
end

