-- ==== Sys2Proof/Laws/Ops.lean ====
section
/-!
SUPPORT. The lemmas of the shared operations: operand fields as numbers, the bits of a grid under its writes, the
geometry walk, the two range tests, and what entering a fault, drawing BOARD and reset leave in each field.
-/

namespace Sys2Proof.Machine

/-! ### Operands -/

theorem posCol_eq (pos : BitVec 8) : posCol pos = pos.toNat % 8 := by
  simp [posCol, BitVec.extractLsb'_toNat]

theorem posRow_eq (pos : BitVec 8) : posRow pos = pos.toNat / 8 := by
  have h := pos.isLt
  simp only [posRow, BitVec.extractLsb'_toNat, Nat.shiftRight_eq_div_pow]
  omega

/-- A cell of the walk, said without the list (R104). -/
theorem mem_cells {mask : Byte} {pos : BitVec 8} {c r : Nat} :
    (c, r) ∈ cells mask pos ↔
      ∃ k, k < 8 ∧ mask.getLsbD (7 - k) = true ∧ c = pos.toNat % 8 + k % 3 ∧ r = pos.toNat / 8 + k / 3 := by
  simp only [cells, List.mem_map, List.mem_filter, List.mem_range, stepCell, stepOffset, maskBit, Prod.mk.injEq,
    posCol_eq, posRow_eq]
  exact ⟨fun ⟨k, ⟨hk, hm⟩, hc, hr⟩ => ⟨k, hk, hm, hc.symm, hr.symm⟩,
    fun ⟨k, hk, hm, hc, hr⟩ => ⟨k, ⟨hk, hm⟩, hc.symm, hr.symm⟩⟩

/-! ### Bits of a grid -/

theorem gridBit_of_lt {n : Nat} (g : Grid n) {i : Nat} (h : i < n) (b : Nat) : gridBit g i b = g[i].getLsbD b := by
  simp [gridBit, h]

theorem gridBit_of_ge {n : Nat} (g : Grid n) {i : Nat} (h : n ≤ i) (b : Nat) : gridBit g i b = false := by
  simp [gridBit, Nat.not_lt.mpr h]

/-- Equal bits, equal grids. -/
theorem grid_ext {n : Nat} {g h : Grid n} (e : ∀ i b, i < n → b < 8 → gridBit g i b = gridBit h i b) : g = h := by
  apply Vector.ext
  intro i hi
  apply BitVec.eq_of_getLsbD_eq
  intro b hb
  simpa [gridBit_of_lt _ hi] using e i b hi hb

/-- A write lights its bit and leaves every other bit (R52, R161). -/
theorem gridBit_lightBit {n : Nat} (g : Grid n) {i b : Nat} (hb : b < 8) (j c : Nat) :
    gridBit (lightBit g i b) j c = (gridBit g j c || decide (i < n ∧ j = i ∧ c = b)) := by
  unfold lightBit
  split
  · next hi =>
    by_cases hj : j < n
    · simp only [gridBit_of_lt _ hj, Vector.getElem_set]
      split
      · next e =>
        subst e
        simp only [BitVec.getLsbD_or, BitVec.getLsbD_shiftLeft]
        by_cases hc : c = b
        · subst hc; simp [hi, hb]
        · by_cases hlt : c < b
          · simp [hlt, hc]
          · have : c - b ≠ 0 := by omega
            simp [hc, this, BitVec.getLsbD_one]
      · next ne => simp [Ne.symm ne]
    · have hne : ¬ (j = i) := by omega
      simp [gridBit_of_ge _ (Nat.not_lt.mp hj), hne]
  · next hi => simp [hi]

/-- Writing a list of cells lights exactly those cells. -/
theorem gridBit_lightCells {n : Nat} (cs : List (Nat × Nat)) (hcs : ∀ cell ∈ cs, cell.1 < 8) (g : Grid n) (j c : Nat) :
    gridBit (lightCells cs g) j c = (gridBit g j c || decide (j < n ∧ (c, j) ∈ cs)) := by
  induction cs generalizing g with
  | nil => simp [lightCells]
  | cons cell cs ih =>
    have hb : cell.1 < 8 := hcs cell (by simp)
    have step : lightCells (cell :: cs) g = lightCells cs (lightBit g cell.2 cell.1) := rfl
    rw [step, ih (fun x hx => hcs x (by simp [hx])), gridBit_lightBit g hb, Bool.or_assoc, Bool.eq_iff_iff]
    obtain ⟨cc, cr⟩ := cell
    simp only [Bool.or_eq_true, decide_eq_true_eq, List.mem_cons, Prod.mk.injEq]
    constructor
    · rintro (h | ⟨h1, rfl, rfl⟩ | ⟨h1, h2⟩)
      · exact .inl h
      · exact .inr ⟨h1, .inl ⟨rfl, rfl⟩⟩
      · exact .inr ⟨h1, .inr h2⟩
    · rintro (h | ⟨h1, ⟨rfl, rfl⟩ | h2⟩)
      · exact .inl h
      · exact .inr (.inl ⟨h1, rfl, rfl⟩)
      · exact .inr (.inr ⟨h1, h2⟩)

@[simp] theorem drawGrid_getElem (n k i : Nat) (h : i < n) : (drawGrid n k)[i] = Config.freeByte (k + i) := by
  simp [drawGrid]

/-- FB_BLIT ORs a board row into each of the first 16 columns and leaves the rest (R164). -/
theorem blit_getElem (b : Board) (f : FrameBuffer) {x : Nat} (h : x < 20) :
    (blit b f)[x] = if h' : x < 16 then f[x] ||| b[x] else f[x] := by
  simp [blit]

/-! ### The two range tests -/

/-- `legal`, cell by cell (R109). -/
theorem legal_iff {mask : Byte} {pos : BitVec 8} {b : Board} :
    legal mask pos b = true ↔ ∀ c r, (c, r) ∈ cells mask pos → c < 8 ∧ r < 16 ∧ gridBit b r c = false := by
  simp only [legal, List.all_eq_true, cellFree, Bool.and_eq_true, decide_eq_true_eq, Bool.not_eq_true', Prod.forall,
    and_assoc]

/-- `drawInRange`, cell by cell (R119). -/
theorem drawInRange_iff {mask : Byte} {pos : BitVec 8} :
    drawInRange mask pos = true ↔ ∀ c r, (c, r) ∈ cells mask pos → r < 20 ∧ c < 8 := by
  simp only [drawInRange, List.all_eq_true, pixelInRange, Bool.and_eq_true, decide_eq_true_eq, Prod.forall]

theorem pixelInRange_iff {x y : Nat} : pixelInRange x y = true ↔ x < 20 ∧ y < 8 := by
  simp [pixelInRange]

/-- The increment stops at the top and adds one below it, in a counter of `w` bits (R11). -/
theorem satInc_eq_min {w v : Nat} (hv : v < 2 ^ w) : satInc w v = min (v + 1) (2 ^ w - 1) := by
  unfold satInc
  split <;> omega

theorem satInc_lt {w v : Nat} (hv : v < 2 ^ w) : satInc w v < 2 ^ w := by
  have := satInc_eq_min hv
  omega

theorem le_satInc (w v : Nat) : v ≤ satInc w v := by
  unfold satInc
  split <;> omega

/-- What a reader of SCORE sees is SCORE, where it fits its width (R25). -/
theorem scoreBits_toNat {s : State} (h : s.score < 2 ^ s.params.scoreWidth) : s.scoreBits.toNat = s.score := by
  simp [State.scoreBits, Nat.mod_eq_of_lt h]

/-! ### Faults, the free board, reset -/

section
variable (s : State) (c : FaultCause) (w : Word)

@[simp] theorem raiseFault_eq : raiseFault c w s = s.setFault c w := rfl

@[simp] theorem drawBoard_board : (drawBoard s).board = drawGrid 16 s.draws := rfl
@[simp] theorem drawBoard_draws : (drawBoard s).draws = s.draws + 16 := rfl
@[simp] theorem drawBoard_score : (drawBoard s).score = s.score := rfl
@[simp] theorem drawBoard_ok : (drawBoard s).ok = s.ok := rfl
@[simp] theorem drawBoard_lines : (drawBoard s).lines = s.lines := rfl
@[simp] theorem drawBoard_fb : (drawBoard s).fb = s.fb := rfl
@[simp] theorem drawBoard_initSent : (drawBoard s).initSent = s.initSent := rfl
@[simp] theorem drawBoard_trace : (drawBoard s).trace = s.trace := rfl
@[simp] theorem drawBoard_params : (drawBoard s).params = s.params := rfl
@[simp] theorem drawBoard_port : (drawBoard s).port = s.port := rfl
@[simp] theorem drawBoard_replies : (drawBoard s).replies = s.replies := rfl
@[simp] theorem drawBoard_faultCause : (drawBoard s).faultCause = s.faultCause := rfl
@[simp] theorem drawBoard_faultCmd : (drawBoard s).faultCmd = s.faultCmd := rfl

@[simp] theorem resetBlock_board : (resetBlock s).board = Vector.replicate 16 0x00#8 := rfl
@[simp] theorem resetBlock_score : (resetBlock s).score = 0 := rfl
@[simp] theorem resetBlock_ok : (resetBlock s).ok = false := rfl
@[simp] theorem resetBlock_lines : (resetBlock s).lines = 0 := rfl
@[simp] theorem resetBlock_fb : (resetBlock s).fb = drawGrid 20 s.draws := rfl
@[simp] theorem resetBlock_initSent : (resetBlock s).initSent = false := rfl
@[simp] theorem resetBlock_faultCause : (resetBlock s).faultCause = .noFault := rfl
@[simp] theorem resetBlock_faultCmd : (resetBlock s).faultCmd = 0x0000#16 := rfl
@[simp] theorem resetBlock_trace : (resetBlock s).trace = [] := rfl
@[simp] theorem resetBlock_params : (resetBlock s).params = s.params := rfl
@[simp] theorem resetBlock_port : (resetBlock s).port = s.port := rfl
@[simp] theorem resetBlock_replies : (resetBlock s).replies = s.replies := rfl
@[simp] theorem resetBlock_draws : (resetBlock s).draws = s.draws + 20 := rfl

theorem halted_eq_true : s.halted = true ↔ s.faultCause ≠ .noFault := by simp [State.halted]

theorem halted_eq_false : s.halted = false ↔ s.faultCause = .noFault := by simp [State.halted]

end

/-! ### The sweep's loop: its three turns (R142) -/

theorem sweepLoop_full {w n r : Nat} {a : SweepAcc} (hr : r < 16) (h : a.board[r] = 0xFF#8) :
    sweepLoop w (n + 1) r a = sweepLoop w n r (clearRow w r a) := by
  simp [sweepLoop, hr, h, rowFull]

theorem sweepLoop_up {w n r : Nat} {a : SweepAcc} (hr : r + 1 < 16) (h : a.board[r + 1] ≠ 0xFF#8) :
    sweepLoop w (n + 1) (r + 1) a = sweepLoop w n r a := by
  simp [sweepLoop, hr, h, rowFull]

theorem sweepLoop_exit {w n : Nat} {a : SweepAcc} (h : a.board[0] ≠ 0xFF#8) : sweepLoop w (n + 1) 0 a = a := by
  simp [sweepLoop, h, rowFull]

/-- One turn of the loop: a clear, the end, or a move up. -/
theorem sweepLoop_turn (w n r : Nat) (a : SweepAcc) :
    sweepLoop w (n + 1) r a = sweepLoop w n r (clearRow w r a) ∨ sweepLoop w (n + 1) r a = a ∨
      ∃ r', r = r' + 1 ∧ sweepLoop w (n + 1) r a = sweepLoop w n r' a := by
  have e : sweepLoop w (n + 1) r a =
      if rowFull (if h : r < 16 then a.board[r] else 0x00#8) then sweepLoop w n r (clearRow w r a)
      else match r with
        | 0 => a
        | r + 1 => sweepLoop w n r a := rfl
  rw [e]
  generalize rowFull (if h : r < 16 then a.board[r] else 0x00#8) = full
  cases full with
  | true => exact .inl rfl
  | false =>
    cases r with
    | zero => exact .inr (.inl rfl)
    | succ r' => exact .inr (.inr ⟨r', rfl, rfl⟩)

/-- What every clear keeps, the loop keeps. -/
theorem sweepLoop_keeps {P : SweepAcc → Prop} {w : Nat} (hP : ∀ r a, P a → P (clearRow w r a)) :
    ∀ (n r : Nat) (a : SweepAcc), P a → P (sweepLoop w n r a) := by
  intro n
  induction n with
  | zero => exact fun _ _ h => h
  | succ n ih =>
    intro r a h
    obtain e | e | ⟨r', -, e⟩ := sweepLoop_turn w n r a <;> rw [e]
    · exact ih _ _ (hP _ _ h)
    · exact h
    · exact ih _ _ h

/-- SWEEP leaves SCORE within its width (R143). -/
theorem sweepLoop_score_lt {w n r : Nat} {a : SweepAcc} (h : a.score < 2 ^ w) : (sweepLoop w n r a).score < 2 ^ w :=
  sweepLoop_keeps (P := fun a => a.score < 2 ^ w) (fun _ _ => satInc_lt) n r a h

/-- SWEEP never lowers SCORE (R25). -/
theorem le_sweepLoop_score (w n r : Nat) (a : SweepAcc) : a.score ≤ (sweepLoop w n r a).score :=
  sweepLoop_keeps (P := fun b => a.score ≤ b.score) (fun _ _ h => h.trans (le_satInc w _)) n r a a.score.le_refl

end Sys2Proof.Machine
end

