-- ==== Sys2Proof/Laws/PerInstr.lean ====
section
/-!
SUPPORT. Facts about every command as syntax, one lemma per constructor.
-/

namespace Sys2Proof.Laws.WordOfRow

/-- The word of a command selects the row of the opcode map that bears its mnemonic (R76). -/
def Statement (i : Instr) : Prop := ∃ row ∈ opcodeTable, row.mnemonic = i.mnemonic ∧ row.selects (encode i) = true

theorem formatP_masked (op : BitVec 3) (id : BitVec 5) (pos : BitVec 8) :
    formatP op id pos &&& 0xE000#16 = formatP op 0 0 := by
  have hm : (0xE000#16 : Word) = formatP 7 0 0 := by decide
  have h3 : ∀ op : BitVec 3, op &&& 7 = op := by decide
  rw [hm]
  unfold formatP
  rw [BitVec.and_append, BitVec.and_append, h3]
  simp

theorem nop : Statement .nop := ⟨⟨"NOP", 0x0000#16, 0xFFFF#16⟩, by simp [opcodeTable], rfl, by decide⟩
theorem gameClear : Statement .gameClear := ⟨⟨"GAME_CLEAR", 0x0001#16, 0xFFFF#16⟩, by simp [opcodeTable], rfl, by decide⟩
theorem fbClear : Statement .fbClear := ⟨⟨"FB_CLEAR", 0x0002#16, 0xFFFF#16⟩, by simp [opcodeTable], rfl, by decide⟩
theorem fbBlit : Statement .fbBlit := ⟨⟨"FB_BLIT", 0x0003#16, 0xFFFF#16⟩, by simp [opcodeTable], rfl, by decide⟩
theorem sweep : Statement .sweep := ⟨⟨"SWEEP", 0x0004#16, 0xFFFF#16⟩, by simp [opcodeTable], rfl, by decide⟩
theorem flush : Statement .flush := ⟨⟨"FLUSH", 0x0005#16, 0xFFFF#16⟩, by simp [opcodeTable], rfl, by decide⟩

theorem check (id : BitVec 5) (pos : BitVec 8) : Statement (.check id pos) :=
  ⟨⟨"CHECK", 0x2000#16, 0xE000#16⟩, by simp [opcodeTable], rfl, by
    simp only [OpcodeRow.selects, encode, formatP_masked]; decide⟩

theorem commit (id : BitVec 5) (pos : BitVec 8) : Statement (.commit id pos) :=
  ⟨⟨"COMMIT", 0x4000#16, 0xE000#16⟩, by simp [opcodeTable], rfl, by
    simp only [OpcodeRow.selects, encode, formatP_masked]; decide⟩

theorem draw (id : BitVec 5) (pos : BitVec 8) : Statement (.draw id pos) :=
  ⟨⟨"DRAW", 0x6000#16, 0xE000#16⟩, by simp [opcodeTable], rfl, by
    simp only [OpcodeRow.selects, encode, formatP_masked]; decide⟩

theorem fbSet (x : BitVec 5) (y : BitVec 3) : Statement (.fbSet x y) :=
  ⟨⟨"FB_SET", 0x8000#16, 0xE0F8#16⟩, by simp [opcodeTable], rfl, by
    revert x y; decide⟩

end Sys2Proof.Laws.WordOfRow
end

