-- ==== Sys2Proof/Laws/Step.lean ====
section
/-!
SUPPORT. What a step can do, said once: the ports decide what is taken, a command word goes through the dispatch, and
a command answers one of ten next states.
-/

namespace Sys2Proof.Machine

/-- What each command does, as setters on the state. -/
theorem exec_cases {i : Instr} {s t : State} (h : exec i s = .next t) :
    (i = .nop ∧ t = s) ∨
    (i = .gameClear ∧ t = (s.setBoard (Vector.replicate 16 0x00#8)).setScore 0) ∨
    (i = .fbClear ∧ t = s.setFb (Vector.replicate 20 0x00#8)) ∨
    (i = .fbBlit ∧ t = s.setFb (blit s.board s.fb)) ∨
    (i = .sweep ∧ ∃ a, a = sweepLoop s.params.scoreWidth sweepTests 15 { board := s.board, score := s.score, lines := 0 } ∧
      t = ((s.setBoard a.board).setScore a.score).setLines (BitVec.ofNat 5 a.lines)) ∨
    (i = .flush ∧ t = (sendInit s).emit (frameEvents s.fb)) ∨
    (∃ id pos, i = .check id pos ∧ t = s.setOk (legal (s.rom id) pos s.board)) ∨
    (∃ id pos, i = .commit id pos ∧
      ((legal (s.rom id) pos s.board = true ∧ t = s.setBoard (lightCells (cells (s.rom id) pos) s.board)) ∨
       (legal (s.rom id) pos s.board = false ∧
        t = (drawBoard s).setFault .commitPrecondition (encode (.commit id pos))))) ∨
    (∃ id pos, i = .draw id pos ∧
      ((drawInRange (s.rom id) pos = true ∧ t = s.setFb (lightCells (cells (s.rom id) pos) s.fb)) ∨
       (drawInRange (s.rom id) pos = false ∧ t = s.setFault .drawRange (encode (.draw id pos))))) ∨
    (∃ x y, i = .fbSet x y ∧
      ((x.toNat < 20 ∧ t = s.setFb (lightBit s.fb x.toNat y.toNat)) ∨
       (20 ≤ x.toNat ∧ t = s.setFault .drawRange (encode (.fbSet x y))))) := by
  cases i with
  | nop => cases h; simp
  | gameClear => cases h; simp
  | fbClear => cases h; simp
  | fbBlit => cases h; simp
  | sweep => cases h; simp
  | flush => cases h; simp
  | check id pos => cases h; simp
  | commit id pos =>
    cases h
    cases hl : legal (s.rom id) pos s.board <;> simp [hl]
  | draw id pos =>
    cases h
    cases hl : drawInRange (s.rom id) pos <;> simp [hl]
  | fbSet x y =>
    cases h
    have hy : y.toNat < 8 := y.isLt
    by_cases hx : x.toNat < 20
    · have hp : pixelInRange x.toNat y.toNat = true := pixelInRange_iff.mpr ⟨hx, hy⟩
      simp [hp, hx, Nat.not_le.mpr hx]
    · have hp : pixelInRange x.toNat y.toNat = false := by
        rw [Bool.eq_false_iff]; exact fun h => hx (pixelInRange_iff.mp h).1
      simp [hp, hx, Nat.not_lt.mp hx]

/-- The dispatch of a word while the block runs (R201). -/
theorem dispatchWord_running {w : Word} {s : State} (hs : s.faultCause = .noFault) :
    dispatchWord w s =
      match decode w with
      | .error _ => .next (s.setFault .illegalCommand w)
      | .ok i => exec i s := by
  cases hd : decode w <;> simp [dispatchWord, State.halted, hs, hd, raiseFault_eq]

/-- The dispatch of a word while the block is halted (R202). -/
theorem dispatchWord_halted {w : Word} {s : State} (hs : s.faultCause ≠ .noFault) : dispatchWord w s = .next s := by
  simp [dispatchWord, (halted_eq_true s).mpr hs]

/-- With nothing to do a step changes nothing (R236). -/
theorem step_idle {s : State} (hp : s.port = []) : step s = .next s := by simp [step, takeNext, hp]

/-- A step takes the first action of the ports. -/
theorem step_cons {s : State} {act : HostAction} {rest : List HostAction} (hp : s.port = act :: rest) :
    step s = takeAction act (s.setPort rest) := by simp [step, takeNext, hp]

/-- Everything a step can do. -/
theorem step_cases {s t : State} (h : step s = .next t) :
    (s.port = [] ∧ t = s) ∨
    ∃ act rest, s.port = act :: rest ∧
      ((act = .reset ∧ t = resetBlock (s.setPort rest)) ∨
       (∃ a, act = .observe a ∧
          t = (s.setPort rest).setReplies (s.replies ++ [observe (s.setPort rest) a])) ∨
       (∃ w, act = .command w ∧
          ((s.faultCause ≠ .noFault ∧ t = s.setPort rest) ∨
           (s.faultCause = .noFault ∧ (∃ e, decode w = .error e) ∧
              t = (s.setPort rest).setFault .illegalCommand w) ∨
           (s.faultCause = .noFault ∧ ∃ i, decode w = .ok i ∧ exec i (s.setPort rest) = .next t)))) := by
  cases hp : s.port with
  | nil =>
    rw [step_idle hp] at h
    cases h
    exact .inl ⟨rfl, rfl⟩
  | cons act rest =>
    refine .inr ⟨act, rest, rfl, ?_⟩
    rw [step_cons hp] at h
    cases act with
    | reset => cases h; exact .inl ⟨rfl, rfl⟩
    | observe a => cases h; exact .inr (.inl ⟨a, rfl, rfl⟩)
    | command w =>
      refine .inr (.inr ⟨w, rfl, ?_⟩)
      replace h : dispatchWord w (s.setPort rest) = .next t := h
      by_cases hf : s.faultCause = .noFault
      · rw [dispatchWord_running (by simpa using hf)] at h
        cases hd : decode w with
        | error e =>
          rw [hd] at h
          cases h
          exact .inr (.inl ⟨hf, ⟨e, rfl⟩, rfl⟩)
        | ok i =>
          rw [hd] at h
          exact .inr (.inr ⟨hf, i, rfl, h⟩)
      · rw [dispatchWord_halted (by simpa using hf)] at h
        cases h
        exact .inl ⟨hf, rfl⟩

end Sys2Proof.Machine
end

