-- ==== Sys2Proof/Tests/Slice0.lean ====
section
/-!
SUPPORT. The model's own tests. Expected results are the vectors of 95_test_vectors.md (their ids stand in the
docstrings) or the spec's own words, on that file's test ROM; then, for each statement with hypotheses, a state and
operands that meet all of them together.
-/

namespace Sys2Proof.Tests

open Sys2Proof.Machine Sys2Proof.Safety Sys2Proof.Statements

/-! ### The start state of the vectors -/

/-- A grid of zeros but for the bytes listed. -/
def gridOf (n : Nat) (bytes : List (Nat × Byte)) : Grid n :=
  Vector.ofFn fun i => ((bytes.find? fun p => p.1 == i.val).map (·.2)).getD 0x00#8

/-- `TROM`, the test ROM of 95_test_vectors.md section 2 (D34). -/
def testRom : Vector Byte 32 :=
  gridOf 32 [(0, 0x80), (4, 0xD8), (8, 0xE8), (9, 0x59), (12, 0xF0), (31, 0xFF)]

/-- The reset state with FB = all 0x00, on `TROM` and `INIT_SEQ` = [0x20, 0xA6]. -/
def start : State where
  board := gridOf 16 []
  score := 0
  ok := false
  lines := 0
  fb := gridOf 20 []
  initSent := false
  faultCause := .noFault
  faultCmd := 0
  trace := []
  params := { shapeRom := testRom, scoreWidth := 16, initSeq := [0x20, 0xA6], initPolicy := .once }
  port := []
  replies := []
  draws := 0

/-- The state an outcome goes on with. -/
def stateOf (d : State) : Host.Outcome State Fault Refusal → State
  | .next t => t
  | _ => d

/-- The state after a command. -/
def after (i : Instr) (s : State) : State := stateOf s (exec i s)

/-- `start` with some board rows. -/
def withRows (rows : List (Nat × Byte)) : State := start.setBoard (gridOf 16 rows)

/-- `start` under an initialization policy. -/
def withPolicy (p : Config.InitPolicy) : State := { start with params := { start.params with initPolicy := p } }

/-- `start` with a SCORE_WIDTH. -/
def withWidth (w : Nat) : State := { start with params := { start.params with scoreWidth := w } }

/-- `start` with one action to come. -/
def given (act : HostAction) : State := start.setPort [act]

/-! ### Well-formedness: an ill-formed term for each check -/

theorem test_wf_id : (AsmId.num 32).wellFormed = false ∧ (AsmId.num 31).wellFormed = true := by decide
theorem test_wf_shape : (AsmId.shapeOrient 8 0).wellFormed = false := by decide
theorem test_wf_orient : (AsmId.shapeOrient 7 4).wellFormed = false := by decide
theorem test_wf_pos : (AsmPos.num 256).wellFormed = false ∧ (AsmPos.num 255).wellFormed = true := by decide
theorem test_wf_col : (AsmPos.colRow 8 0).wellFormed = false := by decide
theorem test_wf_row : (AsmPos.colRow 0 32).wellFormed = false := by decide
theorem test_wf_x : (AsmLine.fbSet 32 0).wellFormed = false ∧ (AsmLine.fbSet 31 0).wellFormed = true := by decide
theorem test_wf_y : (AsmLine.fbSet 0 8).wellFormed = false := by decide
theorem test_wf_fill : (AsmLine.fbFill 32).wellFormed = false := by decide
theorem test_wf_placed : (AsmLine.lock (.num 0) (.num 256)).wellFormed = false ∧
    (AsmLine.preview (.num 32)).wellFormed = false := by decide

/-! ### Decoding, bit by bit from R71 to R73 -/

theorem test_decode_nop : decode 0b0000000000000000#16 = .ok .nop := by decide
theorem test_decode_gameClear : decode 0b0000000000000001#16 = .ok .gameClear := by decide
theorem test_decode_fbClear : decode 0b0000000000000010#16 = .ok .fbClear := by decide
theorem test_decode_fbBlit : decode 0b0000000000000011#16 = .ok .fbBlit := by decide
theorem test_decode_sweep : decode 0b0000000000000100#16 = .ok .sweep := by decide
theorem test_decode_flush : decode 0b0000000000000101#16 = .ok .flush := by decide
/-- OP 001, ID 01001 (9), POS 00111011 (0x3B). -/
theorem test_decode_check : decode 0b0010100100111011#16 = .ok (.check 9 0x3B) := by decide
/-- OP 010, ID 11111 (31), POS 01101000 (0x68): M5. -/
theorem test_decode_commit : decode 0b0101111101101000#16 = .ok (.commit 31 0x68) := by decide
/-- OP 011, ID 01000 (8), POS 10001011 (0x8B): E4. -/
theorem test_decode_draw : decode 0b0110100010001011#16 = .ok (.draw 8 0x8B) := by decide
/-- OP 100, X 10100 (20), Z 00000, Y 111 (7): E13. -/
theorem test_decode_fbSet : decode 0b1001010000000111#16 = .ok (.fbSet 20 7) := by decide
/-- E6 to E12. -/
theorem test_decode_reserved :
    decode 0x0006 = .error .unassignedFunct ∧ decode 0x00FF = .error .unassignedFunct ∧
    decode 0x0100 = .error .nonzeroZInFormatS ∧ decode 0x1F05 = .error .nonzeroZInFormatS ∧
    decode 0x8008 = .error .nonzeroZInFormatF ∧ decode 0xA000 = .error .unassignedOpcode ∧
    decode 0xFFFF = .error .unassignedOpcode := by decide
theorem test_decodeTableWord : decodeTableWord 16 0x2805 = some (.check 8 5) ∧ decodeTableWord 16 0xA000 = none := by
  decide
theorem test_encode_check : encode (.check 8 0x05) = 0x2805 ∧ encode (.fbSet 16 7) = 0x9007 := by decide

/-! ### Operands: G1, G3 to G8 -/

theorem test_cells_full : cells 0xFF 0x00 = [(0, 0), (1, 0), (2, 0), (0, 1), (1, 1), (2, 1), (0, 2), (1, 2)] := by decide
theorem test_cells_no_wrap : cells 0xE8 0x06 = [(6, 0), (7, 0), (8, 0), (7, 1)] := by decide
theorem test_pos_fields : posCol 0x8B = 3 ∧ posRow 0x8B = 17 ∧ posCol 0xFF = 7 ∧ posRow 0xFF = 31 := by decide
theorem test_rotation : rotNext 0x0D = 0x0E ∧ rotPrev 0x0D = 0x0C ∧ rotNext 0x0B = 0x08 ∧ rotPrev 0x0B = 0x0A := by decide
/-- R264: no step over a column edge. -/
theorem test_moves : posLeft 0x08 = none ∧ posRight 0x0F = none ∧ posLeft 0x09 = some 0x08 ∧ posDown 0xF8 = 0x00 := by
  decide

/-! ### Commands -/

theorem test_nop : after .nop start = start := by decide
/-- C1. -/
theorem test_gameClear :
    after .gameClear (((withRows [(15, 0xFF)]).setScore 7).setLines 3) = start.setLines 3 := by decide
/-- K4. -/
theorem test_check_column_8 : (after (.check 8 0x06) (start.setOk true)).ok = false := by decide
/-- K18, and P2's second rotation at 0x04. -/
theorem test_check_occupied : (after (.check 9 0x05) (withRows [(2, 0x40)])).ok = false ∧
    (after (.check 9 0x04) (withRows [(2, 0x40)])).ok = true := by decide
/-- M1. -/
theorem test_commit_writes : (after (.commit 8 0x05) start).board = gridOf 16 [(0, 0xE0), (1, 0x40)] := by decide
/-- M2: the fault, its word and STATUS. -/
theorem test_commit_fault :
    let t := after (.commit 0 0x00) (withRows [(0, 0x01)])
    t.faultCause = .commitPrecondition ∧ t.faultCmd = 0x4000 ∧ t.status = 0x80 := by decide
/-- D1. -/
theorem test_draw_preview : (after (.draw 8 0x8B) start).fb = gridOf 20 [(17, 0x38), (18, 0x10)] := by decide
/-- D4. -/
theorem test_draw_range : after (.draw 8 0x98) start = start.setFault .drawRange 0x6898 := by decide
/-- S8. -/
theorem test_sweep_apart :
    let t := after .sweep (withRows [(0, 0x3C), (3, 0xFF), (10, 0xA5), (15, 0xFF)])
    t.board = gridOf 16 [(2, 0x3C), (11, 0xA5)] ∧ t.score = 2 ∧ t.lines = 2 ∧ t.status = 0x04 := by decide
/-- S7, and S5 by its count. -/
theorem test_sweep_saturates :
    (after .sweep ((withRows [(15, 0xFF)]).setScore 0xFFFF)).score = 0xFFFF ∧
    (after .sweep (start.setBoard (Vector.replicate 16 0xFF#8))).lines = 16 := by decide
/-- R143 and R33 at a SCORE_WIDTH of 8: the counter stops at 255 and its upper byte reads 0. -/
theorem test_score_width_8 :
    let s := ((withWidth 8).setScore 0xFF).setBoard (gridOf 16 [(15, 0xFF)])
    (after .sweep s).score = 0xFF ∧ observe (after .sweep s) 0x25 = 0xFF ∧ observe (after .sweep s) 0x26 = 0x00 := by decide
/-- F1. -/
theorem test_fbClear : after .fbClear (start.setFb (Vector.replicate 20 0x5A#8)) = start := by decide
/-- F4. -/
theorem test_fbSet : (after (.fbSet 16 7) start).fb = gridOf 20 [(16, 0x80)] := by decide
/-- E13. -/
theorem test_fbSet_range : after (.fbSet 20 7) start = start.setFault .drawRange 0x9407 := by decide
/-- F3. -/
theorem test_fbBlit_ors :
    (after .fbBlit ((withRows [(15, 0x0F)]).setFb (gridOf 20 [(15, 0xF0)]))).fb = gridOf 20 [(15, 0xFF)] := by decide
/-- L1. -/
theorem test_flush_first :
    (after .flush start).trace =
      [⟨.command, 0x20⟩, ⟨.command, 0xA6⟩] ++ List.replicate 20 ⟨.data, 0x00⟩ := by decide
/-- L2. -/
theorem test_flush_again : (after .flush (start.setInitSent true)).trace = List.replicate 20 ⟨.data, 0x00⟩ := by decide

/-! ### Ports -/

/-- E6. -/
theorem test_step_reserved :
    stateOf start (step (given (.command 0x0006))) = start.setFault .illegalCommand 0x0006 := by decide
/-- H3's second word. -/
theorem test_step_halted :
    stateOf start (step ((given (.command 0xFFFF)).setFault .drawRange 0x6806)) = start.setFault .drawRange 0x6806 := by
  decide
/-- E3, as the first command after reset. -/
theorem test_step_fetch : (stateOf start (step (start.withFetchWord 16 0x2805))).ok = true := by decide
/-- R33 at the edges of its ranges. -/
theorem test_observe_grids :
    let s := (withRows [(0, 0x01), (15, 0x0F)]).setFb (gridOf 20 [(0, 0x10), (19, 0x13)])
    observe s 0x00 = 0x01 ∧ observe s 0x0F = 0x0F ∧ observe s 0x10 = 0x10 ∧ observe s 0x23 = 0x13 := by decide
/-- R33, R37, R54. -/
theorem test_observe_registers :
    let s := (((start.setScore 0x1234).setFault .drawRange 0x6806).setLines 2).setOk true
    observe s 0x24 = 0xC5 ∧ observe s 0x25 = 0x34 ∧ observe s 0x26 = 0x12 ∧ observe s 0x27 = 0x06 ∧
    observe s 0x28 = 0x68 ∧ observe s 0x29 = 0x00 ∧ observe s 0x3F = 0x00 := by decide
theorem test_reset_leaves_halt :
    let t := stateOf start (step ((given .reset).setFault .illegalCommand 0xA000))
    t.faultCause = .noFault ∧ t.faultCmd = 0 ∧ t.params = start.params ∧ t.status = 0x00 := by decide

/-! ### Assembler: the examples of R90, R91 -/

theorem test_asm_examples :
    assembleText "SWEEP".toList = some [.sweep] ∧
    assembleText "CHECK 2.0, (5, 0) ; a comment".toList = some [.check 8 0x05] := by decide
theorem test_asm_numbers :
    assembleText "FB_SET 0x10, 0b111".toList = some [.fbSet 16 7] ∧ assembleText "CHECK 32, 0".toList = none := by decide
theorem test_asm_pseudo : assembleWords (.lock (.num 4) (.num 0x70)) = some [0x4470, 0x0004] := by decide

/-! ### Witnesses: states and operands that meet the hypotheses of the statements -/

theorem witness_EncodeOfDecodeIsTheWord : decode 0x2805 = .ok (.check 8 0x05) := by decide
theorem witness_OpcodeMapSelectsTheDecodedCommand :
    (∃ row ∈ opcodeTable, row.selects 0x9007 = true) ∧ decode 0x9007 = .ok (.fbSet 16 7) ∧
    decode 0x9008 = .error .nonzeroZInFormatF := by decide
theorem witness_OperandFieldsAreReadUnchanged :
    decode 0x3FFF = .ok (.check 31 0xFF) ∧ decode 0x5FFF = .ok (.commit 31 0xFF) ∧ decode 0x7FFF = .ok (.draw 31 0xFF) ∧
    decode 0x9F07 = .ok (.fbSet 31 7) := by decide
theorem witness_ReservedWordsByRange :
    decode 0x0006 = .error .unassignedFunct ∧ decode 0x00FF = .error .unassignedFunct ∧ decode 0x0005 = .ok .flush ∧
    decode 0x0100 = .error .nonzeroZInFormatS ∧ decode 0x1FFF = .error .nonzeroZInFormatS ∧
    decode 0x2000 = .ok (.check 0 0) ∧ decode 0x8007 = .ok (.fbSet 0 7) ∧ decode 0x8008 = .error .nonzeroZInFormatF ∧
    decode 0x9FFF = .error .nonzeroZInFormatF ∧ decode 0xA000 = .error .unassignedOpcode ∧
    decode 0xFFFF = .error .unassignedOpcode := by decide
theorem witness_StepRunsTheDecodedCommand :
    (given (.command 0x4805)).port = [.command 0x4805] ∧ (given (.command 0x4805)).faultCause = .noFault ∧
    decode 0x4805 = .ok (.commit 8 0x05) := by decide
theorem witness_ReservedWordRaisesIllegalCommand :
    (given (.command 0xA000)).port = [.command 0xA000] ∧ (given (.command 0xA000)).faultCause = .noFault ∧
    decode 0xA000 = .error .unassignedOpcode := by decide

/-- A halted machine with one action to come. -/
def haltedGiven (act : HostAction) : State := (given act).setFault .illegalCommand 0xA000

theorem witness_HaltedBlockIgnoresCommands :
    (haltedGiven (.command 0x0001)).faultCause ≠ .noFault ∧ (haltedGiven (.command 0x0001)).port = [.command 0x0001] ∧
    (haltedGiven (.observe 0x24)).port = [.observe 0x24] ∧ (haltedGiven .reset).port = [.reset] ∧
    (stateOf start (step (haltedGiven .reset))).faultCause = .noFault := by decide
theorem witness_FirstFaultIsKeptUntilReset :
    (haltedGiven (.command 0xFFFF)).faultCause ≠ .noFault ∧ HostAction.reset ∉ (haltedGiven (.command 0xFFFF)).port := by
  decide
theorem witness_FaultIsPreciseAndRecordsTheWord :
    let s := given (.command 0x6806)
    s.port = [.command 0x6806] ∧ s.faultCause = .noFault ∧ (stateOf s (step s)).faultCause = .drawRange := by decide
theorem witness_FaultIsPrecise_commit :
    let s := (withRows [(0, 0x01)]).setPort [.command 0x4000]
    (stateOf s (step s)).faultCause = .commitPrecondition := by decide
theorem witness_FaultCausesByCommand :
    let s := given (.command 0x9F00)
    s.port = [.command 0x9F00] ∧ s.faultCause = .noFault ∧ (stateOf s (step s)).faultCause = .drawRange := by decide
theorem witness_ResetGivesEveryElementItsValue : (given .reset).port = [.reset] := by decide
theorem witness_CommitWritesTheLegalPieceOrHalts :
    placementLegal (start.rom 31) 0x68 start.board ∧ ¬ placementLegal (start.rom 31) 0x70 start.board := by decide
theorem witness_UnspecifiedBoardIsFreeValues : ¬ placementLegal (start.rom 0) 0x00 (withRows [(0, 0x01)]).board := by decide
theorem witness_CommitAddsPopcountCells : placementLegal (start.rom 8) 0x05 start.board ∧ popcount (start.rom 8) = 4 := by
  decide
theorem witness_RepeatedCommitFaults : start.rom 8 ≠ 0x00#8 ∧ placementLegal (start.rom 8) 0x05 start.board := by decide

/-- CHECK, an FB_BLIT between, and the COMMIT it covers. -/
def checkedCommit : State :=
  start.setPort [.command (encode (.check 8 0x05)), .command 0x0003, .command (encode (.commit 8 0x05))]

theorem witness_CheckedCommitDoesNotFault :
    checkedCommit.faultCause = .noFault ∧
    checkedCommit.port = .command (encode (.check 8 0x05)) :: [.command 0x0003] ++ [.command (encode (.commit 8 0x05))] ∧
    keepsCheckFresh (.command 0x0003) = true ∧
    (stateOf start (step checkedCommit)).ok = true ∧
    (stateOf start (step (stateOf start (step checkedCommit)))).faultCause = .noFault := by decide
theorem witness_DrawLightsThePieceOrHalts :
    drawingInRange (start.rom 31) 0x88 ∧ ¬ drawingInRange (start.rom 31) 0x90 := by decide
theorem witness_PreviewIsInsideTheBufferAndOffTheBoard : start.rom 9 ≠ 0x00#8 ∧ pieceCell (start.rom 9) 0x8B 4 19 := by
  decide
/-- The empty mask's id in `TROM`: K8. -/
theorem witness_PreviewOfTheEmptyMask : start.rom 1 = 0x00#8 := by decide
theorem witness_SweepEqualsCompaction : scoreFits (start.setScore 0xFFFF) := by unfold scoreFits; decide
theorem witness_ObservationPortShowsTheMap :
    scoreFits (start.setScore 0xFFFF) ∧ (withWidth 8).params.scoreWidth ≤ 8 := by unfold scoreFits; decide
theorem witness_RowShiftIsSimultaneous : (15 : Nat) < 16 ∧ (0 : Nat) < 16 ∧ (1 : Nat) ≤ 15 ∧ (3 : Nat) < 4 := by decide
theorem witness_SweepClearsTheTwoBottomRows :
    let s := withRows [(14, 0xFF), (15, 0xFF), (0, 0x01), (13, 0x0E)]
    s.board[14] = 0xFF#8 ∧ s.board[15] = 0xFF#8 ∧ (∀ r : Fin 14, s.board[r.val] ≠ 0xFF#8) ∧ s.score + 2 < 2 ^ s.params.scoreWidth := by
  decide
theorem witness_SweepClearsWhatACommitCompleted :
    let s := withRows [(13, 0x21), (14, 0xFC), (15, 0xFC)]
    placementLegal (s.rom 4) 0x70 s.board ∧ (∀ r : Fin 16, s.board[r.val] ≠ 0xFF#8) ∧ s.score + 16 < 2 ^ s.params.scoreWidth := by
  decide
theorem witness_FbSetLightsOnePixelOrHalts : (19 : BitVec 5).toNat < 20 ∧ 20 ≤ (20 : BitVec 5).toNat := by decide
theorem witness_DrawingCommandsCommute :
    isDrawing (.draw 8 0x05) = true ∧ isDrawing .fbBlit = true ∧
    (after .fbBlit (after (.draw 8 0x05) start)).faultCause = .noFault := by decide
/-- The state after a run of some steps. -/
def afterRun (k : Nat) (s : State) : State := stateOf s (core.run k s)

theorem witness_FrameClearForgetsTheOldFrame :
    let s := start.setPort [.command 0x0003, .observe 0x24, .command (encode .fbClear)]
    agreeButFb s (s.setFb (gridOf 20 [(0, 0x5A)])) ∧
    s.port = [.command 0x0003, .observe 0x24] ++ .command (encode .fbClear) :: [] ∧
    hidesFrame (.command 0x0003) = true ∧ hidesFrame (.observe 0x24) = true ∧
    (afterRun 3 s).faultCause = .noFault ∧ (afterRun 3 s).port = [] ∧
    afterRun 3 (s.setFb (gridOf 20 [(0, 0x5A)])) = afterRun 3 s :=
  ⟨rfl, by decide, by decide, by decide, by decide, by decide, by decide +kernel⟩
theorem witness_OnlyThreeCommandsWriteBoard :
    let s := given (.command 0x4805)
    (stateOf s (step s)).board ≠ s.board := by decide
theorem witness_EachRegisterHasItsWriters :
    (stateOf start (step (given (.command 0x2805)))).ok ≠ start.ok ∧
    (stateOf start (step (given (.command 0x9007)))).fb ≠ start.fb ∧
    (stateOf start (step (given (.command 0x0005)))).trace ≠ start.trace ∧
    (stateOf start (step (given (.command 0x0005)))).initSent ≠ start.initSent := by decide
theorem witness_EachRegisterHasItsWriters_sweep :
    let s := (withRows [(15, 0xFF)]).setPort [.command 0x0004]
    (stateOf s (step s)).lines ≠ s.lines ∧ (stateOf s (step s)).score ≠ s.score := by decide
theorem witness_ScoreDecreasesOnlyByClearOrReset :
    let s := (given (.command 0x0001)).setScore 7
    (stateOf s (step s)).score < s.score := by decide
theorem witness_EachRegisterHasItsWriters_fault :
    let s := given (.command 0x9F00)
    (stateOf s (step s)).faultCause ≠ s.faultCause ∧ (stateOf s (step s)).faultCmd ≠ s.faultCmd := by decide
/-- Of every statement about any step: EveryStepKeepsTheParameters, SinkTraceOnlyGrows. -/
theorem witness_step_answers : step (given (.command 0x0005)) = .next (after .flush start) := rfl
theorem witness_SevenCommandsAreIdempotent : Instr.fbBlit ≠ .sweep ∧ Instr.fbBlit ≠ .flush := by decide
theorem witness_FrameNeverReachesTheGame :
    let s := given (.command 0x2805)
    let t := (s.setFb (gridOf 20 [(0, 0x5A)])).setInitSent true
    t = { s with fb := t.fb, trace := t.trace, initSent := t.initSent, replies := t.replies } := rfl
theorem witness_EveryStepKeepsTheInvariant : Inv start :=
  ⟨by simp [scoreFits, start], by simp [linesBounded, start], rfl, [], by decide, rfl⟩
/-- The same under EVERY_FLUSH, after two FLUSHes. -/
theorem witness_EveryStepKeepsTheInvariant_everyFlush :
    traceSound (after .flush (after .flush (withPolicy .everyFlush))) :=
  ⟨[gridOf 20 [], gridOf 20 []], by decide, by decide⟩

end Sys2Proof.Tests
end

section
/-!
SUPPORT. A command word that decodes is the one word of its command (30_encoding.md section 3).
-/

namespace Sys2Proof

theorem encode_of_decodeFunct {f : BitVec 8} {i : Instr} (h : decodeFunct f = .ok i) : encode i = formatS f := by
  unfold decodeFunct at h
  split_ifs at h <;> cases h <;> simp [encode, *]

/-- The fields of a format F word, side by side, are the word (R73). -/
theorem word_eq_formatF {w : Word} (hop : fieldOp w = 0b100#3) (hz : fieldZ w = 0b00000#5) :
    w = formatF (fieldHigh w) (fieldY w) := by
  have hop' : w.toNat / 8192 = 4 := by rw [← fieldOp_toNat, hop]; rfl
  have hz' : w.toNat / 8 % 32 = 0 := by rw [← fieldZ_toNat, hz]; rfl
  apply BitVec.eq_of_toNat_eq
  rw [formatF_toNat, fieldHigh_toNat, fieldY_toNat]
  omega

/-- The word of a decoded command is the word it was read from (R77, R79). -/
theorem encode_of_decode {w : Word} {i : Instr} (h : decode w = .ok i) : encode i = w := by
  have e := word_eq_fields w
  unfold decode at h
  split_ifs at h with hS hz hCheck hCommit hDraw hF hzF
  · rw [hS, hz] at e
    exact (encode_of_decodeFunct h).trans e.symm
  · cases h; rw [hCheck] at e; exact e.symm
  · cases h; rw [hCommit] at e; exact e.symm
  · cases h; rw [hDraw] at e; exact e.symm
  · cases h; exact (word_eq_formatF hF hzF).symm

end Sys2Proof
end

section
/-!
SUPPORT. The observation port's map (R33) and the fields of STATUS (R37).
-/

namespace Sys2Proof.Machine

open Sys2Proof.Safety

variable {s : State} {a : BitVec 6}

theorem byteOf_toNat {w : Nat} (v : BitVec w) (k : Nat) : (byteOf v k).toNat = v.toNat / 256 ^ k % 256 := by
  simp [byteOf, BitVec.extractLsb'_toNat, Nat.shiftRight_eq_div_pow, pow_mul]

theorem observe_board (h : a.toNat < 16) : observe s a = s.board[a.toNat] := by
  simp [observe, h]

theorem observe_fb (hl : 16 ≤ a.toNat) (h : a.toNat - 16 < 20) : observe s a = s.fb[a.toNat - 16] := by
  have h1 : ¬ a.toNat < 16 := by omega
  have h2 : a.toNat < 36 := by omega
  simp [observe, h1, h2]

theorem observe_status (h : a.toNat = 0x24) : observe s a = s.status := by
  obtain rfl : a = 0x24#6 := BitVec.eq_of_toNat_eq h
  rfl

theorem observe_score_low (h : a.toNat = 0x25) : observe s a = byteOf s.scoreBits 0 := by
  obtain rfl : a = 0x25#6 := BitVec.eq_of_toNat_eq h
  rfl

theorem observe_score_high (h : a.toNat = 0x26) : observe s a = byteOf s.scoreBits 1 := by
  obtain rfl : a = 0x26#6 := BitVec.eq_of_toNat_eq h
  rfl

theorem observe_faultCmd_low (h : a.toNat = 0x27) : observe s a = byteOf s.faultCmd 0 := by
  obtain rfl : a = 0x27#6 := BitVec.eq_of_toNat_eq h
  rfl

theorem observe_faultCmd_high (h : a.toNat = 0x28) : observe s a = byteOf s.faultCmd 1 := by
  obtain rfl : a = 0x28#6 := BitVec.eq_of_toNat_eq h
  rfl

theorem observe_unmapped (h : 0x29 ≤ a.toNat) : observe s a = 0x00#8 := by
  have hne : ∀ k : BitVec 6, k.toNat < 0x29 → a ≠ k := by rintro k hk rfl; omega
  have h1 : ¬ a.toNat < 16 := by omega
  have h2 : ¬ a.toNat < 36 := by omega
  simp [observe, h1, h2, hne]

/-- Byte `k` of a SCORE that fits its width (R25). -/
theorem byteOf_scoreBits_toNat (hs : scoreFits s) (k : Nat) :
    (byteOf s.scoreBits k).toNat = s.score / 256 ^ k % 256 := by
  rw [byteOf_toNat, scoreBits_toNat hs]

/-- A SCORE of eight bits or fewer has no second byte (R33). -/
theorem byteOf_scoreBits_one_of_narrow (h : s.params.scoreWidth ≤ 8) : byteOf s.scoreBits 1 = 0x00#8 := by
  have hlt : s.scoreBits.toNat < 256 := s.scoreBits.isLt.trans_le (Nat.pow_le_pow_right (by decide) h)
  apply BitVec.eq_of_toNat_eq
  simp [byteOf_toNat, Nat.div_eq_of_lt hlt]

/-- A read of the observation port appends its answer to the host's replies and changes nothing else (R33). -/
theorem step_observe {rest : List HostAction} (hp : s.port = .observe a :: rest) :
    step s = .next { s with port := rest, replies := s.replies ++ [observe s a] } := by
  rw [step_cons hp]
  rfl

theorem status_ok (s : State) : s.status.getLsbD 0 = s.ok :=
  (BitVec.getLsbD_append (x := s.faultCause.code ++ s.lines)).trans (by simp)

theorem status_lines (s : State) : s.status.extractLsb' 1 5 = s.lines :=
  (BitVec.extractLsb'_append_eq_of_le (xlo := BitVec.ofBool s.ok) le_rfl).trans BitVec.extractLsb'_append_eq_right

theorem status_faultCause (s : State) : s.status.extractLsb' 6 2 = s.faultCause.code :=
  (BitVec.extractLsb'_append_eq_of_le (xlo := BitVec.ofBool s.ok) (by decide)).trans BitVec.extractLsb'_append_eq_left

end Sys2Proof.Machine
end

section
/-!
SUPPORT. What a command word does in a step, and which command writes which register.
-/

namespace Sys2Proof.Machine

@[simp] theorem emit_eq (s : State) (es : List SinkEvent) : s.emit es = s.setTrace (s.trace ++ es) := rfl

/-- The initialization writes the sink trace and INIT_SENT alone (R172). -/
theorem sendInit_frame (s : State) : ∃ trace sent, sendInit s = (s.setTrace trace).setInitSent sent := by
  unfold sendInit
  split
  · exact ⟨s.trace ++ initEvents s.params.initSeq, true, rfl⟩
  · exact ⟨s.trace, s.initSent, rfl⟩

/-- What a command word does: nothing to a halted block (R202), ILLEGAL_COMMAND where it is reserved (R221), else what
its command does (R201). -/
theorem step_command_cases {s t : State} {w : Word} {rest : List HostAction} (hp : s.port = .command w :: rest)
    (h : step s = .next t) :
    (s.faultCause ≠ .noFault ∧ t = s.setPort rest) ∨
    (s.faultCause = .noFault ∧ (∃ e, decode w = .error e) ∧ t = (s.setPort rest).setFault .illegalCommand w) ∨
    (s.faultCause = .noFault ∧ ∃ i, decode w = .ok i ∧ exec i (s.setPort rest) = .next t) := by
  obtain ⟨hnil, -⟩ | ⟨act, rest', hp', hact⟩ := step_cases h
  · simp [hp] at hnil
  · obtain ⟨rfl, rfl⟩ : act = .command w ∧ rest' = rest := by simpa [hp, eq_comm] using hp'
    simpa using hact

/-- From `s` to `t` a register changed only where command `i` is one of its writers. -/
structure ChangedByWriter (i : Instr) (s t : State) : Prop where
  board : t.board ≠ s.board → i = .gameClear ∨ i = .sweep ∨ ∃ id pos, i = .commit id pos
  ok : t.ok ≠ s.ok → ∃ id pos, i = .check id pos
  lines : t.lines ≠ s.lines → i = .sweep
  score : t.score ≠ s.score → i = .sweep ∨ i = .gameClear
  fb : t.fb ≠ s.fb → i = .fbClear ∨ i = .fbBlit ∨ (∃ id pos, i = .draw id pos) ∨ ∃ x y, i = .fbSet x y
  initSent : t.initSent ≠ s.initSent → i = .flush
  trace : t.trace ≠ s.trace → i = .flush
  fault : t.faultCause ≠ s.faultCause ∨ t.faultCmd ≠ s.faultCmd →
    t.faultCause ≠ .noFault ∧ t.faultCmd = encode i ∧
      ((∃ id pos, i = .commit id pos) ∨ (∃ id pos, i = .draw id pos) ∨ ∃ x y, i = .fbSet x y)
  params : t.params = s.params
  replies : t.replies = s.replies
  port : t.port = s.port

theorem exec_changedByWriter {i : Instr} {s t : State} (h : exec i s = .next t) : ChangedByWriter i s t := by
  obtain ⟨trace, sent, hflush⟩ := sendInit_frame s
  obtain ⟨rfl, rfl⟩ | ⟨rfl, rfl⟩ | ⟨rfl, rfl⟩ | ⟨rfl, rfl⟩ | ⟨rfl, a, -, rfl⟩ | ⟨rfl, rfl⟩ | ⟨id, pos, rfl, rfl⟩ |
    ⟨id, pos, rfl, ⟨-, rfl⟩ | ⟨-, rfl⟩⟩ | ⟨id, pos, rfl, ⟨-, rfl⟩ | ⟨-, rfl⟩⟩ |
    ⟨x, y, rfl, ⟨-, rfl⟩ | ⟨-, rfl⟩⟩ := exec_cases h
  all_goals constructor <;> simp [hflush]

end Sys2Proof.Machine
end

section
/-!
SUPPORT. The machine without its frame: every step does the same to the rest of the machine whatever the frame buffer,
the sink and the replies hold.
-/

namespace Sys2Proof.Machine

/-- The machine with nothing in the frame buffer, in the sink and in the host's replies. -/
def State.eraseFrame (s : State) : State :=
  (((s.setFb (Vector.replicate 20 0x00#8)).setTrace []).setInitSent false).setReplies []

section
variable (s : State)

@[simp] theorem eraseFrame_board : s.eraseFrame.board = s.board := rfl
@[simp] theorem eraseFrame_score : s.eraseFrame.score = s.score := rfl
@[simp] theorem eraseFrame_params : s.eraseFrame.params = s.params := rfl
@[simp] theorem eraseFrame_rom (id : BitVec 5) : s.eraseFrame.rom id = s.rom id := rfl

@[simp] theorem eraseFrame_setBoard (b : Board) : (s.setBoard b).eraseFrame = s.eraseFrame.setBoard b := rfl
@[simp] theorem eraseFrame_setScore (v : Nat) : (s.setScore v).eraseFrame = s.eraseFrame.setScore v := rfl
@[simp] theorem eraseFrame_setOk (v : Bool) : (s.setOk v).eraseFrame = s.eraseFrame.setOk v := rfl
@[simp] theorem eraseFrame_setLines (v : BitVec 5) : (s.setLines v).eraseFrame = s.eraseFrame.setLines v := rfl
@[simp] theorem eraseFrame_setFault (c : FaultCause) (w : Word) :
    (s.setFault c w).eraseFrame = s.eraseFrame.setFault c w := rfl
@[simp] theorem eraseFrame_drawBoard : (drawBoard s).eraseFrame = drawBoard s.eraseFrame := rfl

@[simp] theorem eraseFrame_eraseFrame : s.eraseFrame.eraseFrame = s.eraseFrame := rfl
@[simp] theorem eraseFrame_setFb (f : FrameBuffer) : (s.setFb f).eraseFrame = s.eraseFrame := rfl
@[simp] theorem eraseFrame_setTrace (l : List SinkEvent) : (s.setTrace l).eraseFrame = s.eraseFrame := rfl
@[simp] theorem eraseFrame_setInitSent (v : Bool) : (s.setInitSent v).eraseFrame = s.eraseFrame := rfl
@[simp] theorem eraseFrame_setReplies (r : List Byte) : (s.setReplies r).eraseFrame = s.eraseFrame := rfl

@[simp] theorem eraseFrame_sendInit : (sendInit s).eraseFrame = s.eraseFrame := by
  obtain ⟨trace, sent, e⟩ := sendInit_frame s
  simp [e]

@[simp] theorem eraseFrame_resetBlock_eraseFrame : (resetBlock s.eraseFrame).eraseFrame = (resetBlock s).eraseFrame :=
  rfl

end

/-- Two machines are the same without their frames when they agree on all else. -/
theorem eraseFrame_eq_iff {s t : State} :
    t.eraseFrame = s.eraseFrame ↔
      t = { s with fb := t.fb, trace := t.trace, initSent := t.initSent, replies := t.replies } := by
  constructor
  · intro h
    have field {α : Type} (f : State → α) : f t.eraseFrame = f s.eraseFrame := congrArg f h
    exact State.ext_fields (field State.board) (field State.score) (field State.ok) (field State.lines) rfl rfl
      (field State.faultCause) (field State.faultCmd) rfl (field State.params) (field State.port) rfl
      (field State.draws)
  · intro h
    rw [h]
    rfl

/-- Run on a machine and on the same machine without its frame, `f` leaves the same machine but for the frame. -/
def BlindToFrame (f : State → Host.Outcome State Fault Refusal) : Prop :=
  ∀ s t, f s = .next t → ∃ u, f s.eraseFrame = .next u ∧ u.eraseFrame = t.eraseFrame

theorem exec_blindToFrame (i : Instr) : BlindToFrame (exec i) := by
  intro s t h
  cases i with
  | nop | gameClear | fbClear | fbBlit | sweep | flush | check id pos => cases h; exact ⟨_, rfl, by simp⟩
  | commit id pos =>
    cases h
    refine ⟨_, rfl, ?_⟩
    cases hl : legal (s.rom id) pos s.board <;> simp [hl]
  | draw id pos =>
    cases h
    refine ⟨_, rfl, ?_⟩
    cases hl : drawInRange (s.rom id) pos <;> simp [hl]
  | fbSet x y =>
    cases h
    refine ⟨_, rfl, ?_⟩
    cases hl : pixelInRange x.toNat y.toNat <;> simp

theorem dispatchWord_blindToFrame (w : Word) : BlindToFrame (dispatchWord w) := by
  intro s t h
  by_cases hf : s.faultCause = .noFault
  · rw [dispatchWord_running hf] at h
    rw [dispatchWord_running (s := s.eraseFrame) hf]
    cases hd : decode w with
    | error e => rw [hd] at h; cases h; exact ⟨_, rfl, by simp⟩
    | ok i => rw [hd] at h; exact exec_blindToFrame i s t h
  · rw [dispatchWord_halted hf] at h
    cases h
    exact ⟨_, dispatchWord_halted (s := s.eraseFrame) hf, by simp⟩

theorem takeAction_blindToFrame (act : HostAction) : BlindToFrame (takeAction act) := by
  intro s t h
  cases act with
  | command w => exact dispatchWord_blindToFrame w s t h
  | observe a => cases h; exact ⟨_, rfl, by simp⟩
  | reset => cases h; exact ⟨_, rfl, by simp⟩

theorem step_blindToFrame : BlindToFrame step := by
  intro s t h
  cases hp : s.port with
  | nil =>
    rw [step_idle hp] at h
    cases h
    exact ⟨_, step_idle (s := s.eraseFrame) hp, by simp⟩
  | cons act rest =>
    rw [step_cons hp] at h
    rw [step_cons (s := s.eraseFrame) hp]
    exact takeAction_blindToFrame act (s.setPort rest) t h

end Sys2Proof.Machine
end

section
/-!
CERTIFICATE. The statements of 10_state.md.
-/

namespace Sys2Proof.Certificates

open Sys2Proof.Machine

/-- Settles O44, address by address of the map. -/
theorem observationPortShowsTheMap : Obligations.ObservationPortShowsTheMap := by
  intro s a
  refine ⟨observe_board, observe_fb, observe_status, ?_, ?_, ?_, ?_, ?_, observe_unmapped, fun _ => step_observe⟩
  · intro h hs
    simp [observe_score_low h, byteOf_scoreBits_toNat hs]
  · intro h hs
    simp [observe_score_high h, byteOf_scoreBits_toNat hs]
  · intro h hw
    rw [observe_score_high h, byteOf_scoreBits_one_of_narrow hw]
  · intro h
    simp [observe_faultCmd_low h, byteOf_toNat]
  · intro h
    have hlt : s.faultCmd.toNat / 256 < 256 := by have := s.faultCmd.isLt; omega
    simp [observe_faultCmd_high h, byteOf_toNat, Nat.mod_eq_of_lt hlt]

/-- Settles O45, field by field of STATUS. -/
theorem statusHoldsOkLinesAndCause : Obligations.StatusHoldsOkLinesAndCause :=
  ⟨rfl, fun s => ⟨observe_status rfl, status_ok s, status_lines s, status_faultCause s⟩⟩

/-- Settles O47: a halted block runs no word, a reserved word writes the fault registers, and any other word writes
what its command writes. -/
theorem eachRegisterHasItsWriters : Obligations.EachRegisterHasItsWriters := by
  intro s t w rest hp h
  obtain ⟨-, rfl⟩ | ⟨hrun, ⟨e, he⟩, rfl⟩ | ⟨hrun, i, hi, hexec⟩ := step_command_cases hp h
  · simp
  · simp [hrun, he]
  · obtain ⟨board, ok, lines, score, fb, initSent, trace, fault, params, replies, port⟩ := exec_changedByWriter hexec
    rw [encode_of_decode hi] at fault
    simp only [hi, Except.ok.injEq, reduceCtorEq, exists_false, false_or]
    exact ⟨board, ok, lines, score, fb, initSent, trace, fun changed => ⟨hrun, fault changed⟩, params, replies, port⟩

/-- Settles O46, the first clause of O47. -/
theorem onlyThreeCommandsWriteBoard : Obligations.OnlyThreeCommandsWriteBoard :=
  fun s t w rest hp h => (eachRegisterHasItsWriters s t w rest hp h).1

/-- Settles O52: both machines do what the one machine without a frame does. -/
theorem frameNeverReachesTheGame : Obligations.FrameNeverReachesTheGame := by
  intro s t s' t' hagree hs ht
  obtain ⟨u, hu, hus⟩ := step_blindToFrame s s' hs
  obtain ⟨v, hv, hvt⟩ := step_blindToFrame t t' ht
  rw [eraseFrame_eq_iff.mpr hagree, hu] at hv
  cases hv
  exact eraseFrame_eq_iff.mp (hvt.symm.trans hus)

end Sys2Proof.Certificates
end

section
/-!
SUPPORT. The opcode map read field by field: what a row says of the words that select it, and that its rows are
apart (R76).
-/

namespace Sys2Proof

theorem OpcodeRow.selects_iff {row : OpcodeRow} {w : Word} : row.selects w = true ↔ w &&& row.mask = row.pattern :=
  beq_iff_eq

/-- A row fixes the bits of OP that its mask holds. -/
theorem OpcodeRow.fieldOp_of_selects {row : OpcodeRow} {w : Word} (h : row.selects w = true) :
    fieldOp w &&& fieldOp row.mask = fieldOp row.pattern := by
  rw [← OpcodeRow.selects_iff.mp h]
  exact BitVec.extractLsb'_and.symm

/-- A row fixes the bits of `word[7:3]` that its mask holds. -/
theorem OpcodeRow.fieldZ_of_selects {row : OpcodeRow} {w : Word} (h : row.selects w = true) :
    fieldZ w &&& fieldZ row.mask = fieldZ row.pattern := by
  rw [← OpcodeRow.selects_iff.mp h]
  exact BitVec.extractLsb'_and.symm

/-- Rows that one word selects agree on the bits both masks hold. -/
theorem OpcodeRow.patterns_agree_of_selects {row row' : OpcodeRow} {w : Word} (h : row.selects w = true)
    (h' : row'.selects w = true) : row.pattern &&& row'.mask = row'.pattern &&& row.mask := by
  rw [← OpcodeRow.selects_iff.mp h, ← OpcodeRow.selects_iff.mp h', BitVec.and_assoc, BitVec.and_assoc,
    BitVec.and_comm row.mask]

/-- Different rows of the map differ in a bit that both masks hold. -/
theorem opcodeTable_rows_apart : ∀ row ∈ opcodeTable, ∀ row' ∈ opcodeTable,
    row.pattern &&& row'.mask = row'.pattern &&& row.mask → row = row' := by decide

/-- The three kinds of row: a format S row holds the whole word, a format P row OP, a format F row OP and its Z
(R71 to R73). -/
theorem opcodeTable_formats : ∀ row ∈ opcodeTable,
    (row.mask = BitVec.allOnes 16 ∧ (decode row.pattern).isOk = true) ∨
    (fieldOp row.mask = BitVec.allOnes 3 ∧
      (fieldOp row.pattern = 0b001#3 ∨ fieldOp row.pattern = 0b010#3 ∨ fieldOp row.pattern = 0b011#3)) ∨
    (fieldOp row.mask = BitVec.allOnes 3 ∧ fieldOp row.pattern = 0b100#3 ∧
      fieldZ row.mask = BitVec.allOnes 5 ∧ fieldZ row.pattern = 0b00000#5) := by decide

/-- A word that selects a row is not reserved. -/
theorem decode_isOk_of_selects {row : OpcodeRow} {w : Word} (hrow : row ∈ opcodeTable) (h : row.selects w = true) :
    (decode w).isOk = true := by
  have hop := OpcodeRow.fieldOp_of_selects h
  obtain ⟨hm, hok⟩ | ⟨hm, hp⟩ | ⟨hm, hp, hzm, hzp⟩ := opcodeTable_formats row hrow
  · have hw : w = row.pattern := by rw [← OpcodeRow.selects_iff.mp h, hm, BitVec.and_allOnes]
    rwa [hw]
  · rw [hm, BitVec.and_allOnes] at hop
    obtain hp | hp | hp := hp <;> simp [decode, hop, hp, Except.isOk, Except.toBool]
  · have hz := OpcodeRow.fieldZ_of_selects h
    rw [hm, BitVec.and_allOnes, hp] at hop
    rw [hzm, BitVec.and_allOnes, hzp] at hz
    simp [decode, hop, hz, Except.isOk, Except.toBool]

/-- The word of a command selects the row of its mnemonic. -/
theorem encode_selects_row (i : Instr) : Laws.WordOfRow.Statement i :=
  match i with
  | .nop => Laws.WordOfRow.nop
  | .gameClear => Laws.WordOfRow.gameClear
  | .fbClear => Laws.WordOfRow.fbClear
  | .fbBlit => Laws.WordOfRow.fbBlit
  | .sweep => Laws.WordOfRow.sweep
  | .flush => Laws.WordOfRow.flush
  | .check id pos => Laws.WordOfRow.check id pos
  | .commit id pos => Laws.WordOfRow.commit id pos
  | .draw id pos => Laws.WordOfRow.draw id pos
  | .fbSet x y => Laws.WordOfRow.fbSet x y

end Sys2Proof
end

section
/-!
CERTIFICATE. The statement of 30_encoding.md section 3 about the opcode map.
-/

namespace Sys2Proof.Certificates

/-- Settles O4: a decoded word is the word of its command, and a word that selects a row decodes. -/
theorem opcodeMapSelectsTheDecodedCommand : Obligations.OpcodeMapSelectsTheDecodedCommand := by
  refine ⟨rfl, fun row _ w => OpcodeRow.selects_iff, ?_, ?_, ?_⟩
  · intro w row row' hrow hrow' h h'
    exact opcodeTable_rows_apart row hrow row' hrow' (OpcodeRow.patterns_agree_of_selects h h')
  · intro w i hi
    obtain ⟨row, hrow, hname, hsel⟩ := encode_selects_row i
    rw [encode_of_decode hi] at hsel
    exact ⟨row, hrow, hsel, hname⟩
  · intro w e he row hrow
    refine Bool.eq_false_iff.mpr fun hsel => ?_
    have hok := decode_isOk_of_selects hrow hsel
    rw [he] at hok
    cases hok

end Sys2Proof.Certificates
end

section
/-!
SUPPORT. A piece as its mask bits in numbers, and what CHECK, COMMIT and DRAW answer in each case
(40_board_placement.md).
-/

namespace Sys2Proof.Machine

open Sys2Proof.Statements

variable {m : Byte} {id : BitVec 5} {pos : BitVec 8} {s : State}

/-- What every cell of a walk meets, said mask bit by mask bit (R104). -/
theorem forall_mem_cells {P : Nat → Nat → Prop} :
    (∀ c r, (c, r) ∈ cells m pos → P c r) ↔
      ∀ k < 8, m.getLsbD (7 - k) = true → P (pos.toNat % 8 + k % 3) (pos.toNat / 8 + k / 3) := by
  constructor
  · intro h k hk hm
    exact h _ _ (mem_cells.mpr ⟨k, hk, hm, rfl, rfl⟩)
  · intro h c r hcell
    obtain ⟨k, hk, hm, rfl, rfl⟩ := mem_cells.mp hcell
    exact h k hk hm

theorem legal_iff_placementLegal {b : Board} : legal m pos b = true ↔ placementLegal m pos b :=
  legal_iff.trans forall_mem_cells

theorem drawInRange_iff_drawingInRange : drawInRange m pos = true ↔ drawingInRange m pos :=
  drawInRange_iff.trans (forall_mem_cells.trans (by simp only [drawingInRange, and_comm]))

/-- A walk that stays in the eight columns lights exactly its piece (R116, R118). -/
theorem gridBit_lightCells_cells {n : Nat} (g : Grid n) (hcol : ∀ c r, (c, r) ∈ cells m pos → c < 8) {c r : Nat}
    (hr : r < n) : gridBit (lightCells (cells m pos) g) r c = true ↔ gridBit g r c = true ∨ pieceCell m pos c r := by
  have hlight := gridBit_lightCells (cells m pos) (fun cell => hcol cell.1 cell.2) g r c
  simp only [hlight, Bool.or_eq_true, decide_eq_true_eq, hr, true_and, mem_cells]

theorem exec_gameClear : exec .gameClear s = .next ((s.setBoard (Vector.replicate 16 0x00#8)).setScore 0) := rfl

theorem exec_check : exec (.check id pos) s = .next (s.setOk (legal (s.rom id) pos s.board)) := rfl

theorem exec_commit_of_legal (h : placementLegal (s.rom id) pos s.board) :
    exec (.commit id pos) s = .next (s.setBoard (lightCells (cells (s.rom id) pos) s.board)) :=
  congrArg Host.Outcome.next (if_pos (legal_iff_placementLegal.mpr h))

theorem exec_commit_of_not_legal (h : ¬ placementLegal (s.rom id) pos s.board) :
    exec (.commit id pos) s = .next ((drawBoard s).setFault .commitPrecondition (encode (.commit id pos))) :=
  congrArg Host.Outcome.next (if_neg fun hl => h (legal_iff_placementLegal.mp hl))

theorem exec_draw_of_inRange (h : drawingInRange (s.rom id) pos) :
    exec (.draw id pos) s = .next (s.setFb (lightCells (cells (s.rom id) pos) s.fb)) :=
  congrArg Host.Outcome.next (if_pos (drawInRange_iff_drawingInRange.mpr h))

theorem exec_draw_of_not_inRange (h : ¬ drawingInRange (s.rom id) pos) :
    exec (.draw id pos) s = .next (s.setFault .drawRange (encode (.draw id pos))) :=
  congrArg Host.Outcome.next (if_neg fun hl => h (drawInRange_iff_drawingInRange.mp hl))

end Sys2Proof.Machine
end

section
/-!
CERTIFICATE. Statements of 40_board_placement.md: GAME_CLEAR, CHECK, COMMIT and DRAW.
-/

namespace Sys2Proof.Certificates

open Sys2Proof.Machine

/-- Settles O22: CHECK writes `legal`, which is the placement's legality bit by bit. -/
theorem checkAnswersPlacementLegality : Obligations.CheckAnswersPlacementLegality :=
  ⟨Laws.WordOfRow.formatP_masked _, fun _ _ _ => ⟨_, exec_check, legal_iff_placementLegal, rfl⟩⟩

/-- Settles O23: a legal piece lies in the eight columns, so its walk lights exactly its cells; any other piece is
the fault. -/
theorem commitWritesTheLegalPieceOrHalts : Obligations.CommitWritesTheLegalPieceOrHalts := by
  refine ⟨Laws.WordOfRow.formatP_masked _, fun s id pos => ⟨fun legal => ?_, fun illegal => ?_⟩⟩
  · have hcol : ∀ c r, (c, r) ∈ cells (s.rom id) pos → c < 8 :=
      forall_mem_cells.mpr fun k hk hm => (legal k hk hm).1
    exact ⟨_, exec_commit_of_legal legal, fun c r _ hr => gridBit_lightCells_cells s.board hcol hr, rfl⟩
  · exact ⟨_, exec_commit_of_not_legal illegal, rfl⟩

/-- Settles O29: a piece in range lies in the eight pixel rows, so its walk lights exactly its pixels; any other piece
is the fault. -/
theorem drawLightsThePieceOrHalts : Obligations.DrawLightsThePieceOrHalts := by
  refine ⟨Laws.WordOfRow.formatP_masked _, fun s id pos => ⟨fun inside => ?_, exec_draw_of_not_inRange⟩⟩
  have hcol : ∀ c r, (c, r) ∈ cells (s.rom id) pos → c < 8 :=
    forall_mem_cells.mpr fun k hk hm => (inside k hk hm).1
  exact ⟨_, exec_draw_of_inRange inside, fun c r _ hr => gridBit_lightCells_cells s.fb hcol hr, rfl⟩

/-- Settles O21: every row of the new board is empty, and GAME_CLEAR sets no other field than BOARD and SCORE. -/
theorem gameClearEmptiesBoardAndScore : Obligations.GameClearEmptiesBoardAndScore :=
  ⟨rfl, fun _ => ⟨_, exec_gameClear, fun _ _ => Vector.getElem_replicate _, rfl, rfl⟩⟩

end Sys2Proof.Certificates
end

section
/-!
SUPPORT. SWEEP counts at most 16 lines (R144): a row it clears leaves an empty row at the top of the board, and an
empty row is not full.
-/

namespace Sys2Proof.Machine

/-- Row `i` of a board whose rows above `r` have each moved one row down (R142, R145). -/
theorem shiftDown_getElem (b : Board) {r i : Nat} (hr : r < 16) (hi : i < 16) :
    (shiftDown b r)[i] = if i = 0 then 0x00#8 else if i ≤ r then b[i - 1] else b[i] := by
  induction r generalizing b with
  | zero =>
    obtain rfl | hpos := Nat.eq_zero_or_pos i
    · simp [shiftDown]
    · have hne : i ≠ 0 := hpos.ne'
      simp [shiftDown, hne, hne.symm]
  | succ r ih =>
    simp only [shiftDown, dif_pos hr]
    rw [ih _ (by omega)]
    obtain rfl | hlt | rfl | hgt : i = 0 ∨ (i ≠ 0 ∧ i ≤ r) ∨ i = r + 1 ∨ r + 1 < i := by omega
    · simp
    · have hne : r + 1 ≠ i - 1 := by omega
      simp [hlt, hne, Nat.le_succ_of_le hlt.2]
    · simp
    · have h0 : i ≠ 0 := by omega
      have hr' : ¬ i ≤ r := by omega
      have hr1 : ¬ i ≤ r + 1 := by omega
      simp [h0, hr', hr1, hgt.ne]

/-- What the clear of a full row keeps, the loop keeps: it clears no other row. -/
theorem sweepLoop_keeps_of_full {P : SweepAcc → Prop} {w : Nat}
    (hP : ∀ (r : Nat) (a : SweepAcc) (hr : r < 16), a.board[r] = 0xFF#8 → P a → P (clearRow w r a)) :
    ∀ (n r : Nat) (a : SweepAcc), r < 16 → P a → P (sweepLoop w n r a) := by
  intro n
  induction n with
  | zero => exact fun _ _ _ h => h
  | succ n ih =>
    intro r a hr h
    by_cases hfull : a.board[r] = 0xFF#8
    · rw [sweepLoop_full hr hfull]
      exact ih r _ hr (hP r a hr hfull h)
    · cases r with
      | zero => rwa [sweepLoop_exit hfull]
      | succ r =>
        rw [sweepLoop_up hr hfull]
        exact ih r a (by omega) h

/-- The board's top rows, one for each line counted, are empty. -/
structure LinesEmptyOnTop (a : SweepAcc) : Prop where
  le : a.lines ≤ 16
  empty : ∀ (i : Nat) (hi : i < 16), i < a.lines → a.board[i] = 0x00#8

/-- A full row lies below the empty ones, so that one more fits above it. -/
theorem LinesEmptyOnTop.clearRow {w r : Nat} {a : SweepAcc} (hr : r < 16) (hfull : a.board[r] = 0xFF#8)
    (h : LinesEmptyOnTop a) : LinesEmptyOnTop (clearRow w r a) := by
  have hbelow : a.lines ≤ r := by
    by_contra hlt
    have hempty := h.empty r hr (by omega)
    rw [hfull] at hempty
    exact absurd hempty (by decide)
  refine ⟨show a.lines + 1 ≤ 16 by omega, fun i hi hlines => ?_⟩
  replace hlines : i < a.lines + 1 := hlines
  refine (shiftDown_getElem a.board hr hi).trans ?_
  obtain rfl | hpos := Nat.eq_zero_or_pos i
  · simp
  · simp [hpos.ne', show i ≤ r by omega, h.empty (i - 1) (by omega) (by omega)]

/-- SWEEP clears at most 16 rows (R36, R144). -/
theorem sweepLoop_lines_le (w n : Nat) (b : Board) (v : Nat) :
    (sweepLoop w n 15 { board := b, score := v, lines := 0 }).lines ≤ 16 :=
  (sweepLoop_keeps_of_full (P := LinesEmptyOnTop) (fun _ _ => .clearRow) n 15 _ (by decide)
    ⟨Nat.zero_le 16, fun i _ hi => absurd hi (Nat.not_lt_zero i)⟩).le

end Sys2Proof.Machine
end

section
/-!
SUPPORT. What FLUSH sends, as one more frame of a well-formed sink trace (R171, R172).
-/

namespace Sys2Proof.Safety

open Sys2Proof.Machine

/-- A FLUSH after those of `frames` sends the initialization sequence under EVERY_FLUSH or as the first, then the
frame. -/
theorem flushedTrace_concat (policy : Config.InitPolicy) (initSeq : List Byte) (frames : List FrameBuffer)
    (f : FrameBuffer) :
    flushedTrace policy initSeq (frames ++ [f]) =
      flushedTrace policy initSeq frames ++
        (if policy = .everyFlush ∨ frames = [] then initEvents initSeq else []) ++ frameEvents f := by
  cases policy with
  | everyFlush => simp [flushedTrace]
  | once => cases frames <;> simp [flushedTrace]

/-- The part of FLUSH that the policy rules, field by field: what it sends, and INIT_SENT set. -/
theorem sendInit_eq (s : State) :
    sendInit s = (s.setTrace (s.trace ++
      if s.params.initPolicy = .everyFlush ∨ s.initSent = false then initEvents s.params.initSeq else [])).setInitSent
        true := by
  unfold sendInit
  by_cases h : s.params.initPolicy = .everyFlush ∨ s.initSent = false
  · simp [h]
  · obtain ⟨hp, hi⟩ := not_or.mp h
    simp only [Bool.not_eq_false] at hi
    apply State.ext_fields <;> simp [hp, hi]

/-- FLUSH sends the frame buffer as one more frame. -/
theorem traceSound_flush {s : State} (hs : traceSound s) : traceSound ((sendInit s).emit (frameEvents s.fb)) := by
  obtain ⟨frames, hsent, htrace⟩ := hs
  have hfirst : s.initSent = false ↔ frames = [] := by rw [← Bool.not_eq_true, hsent, not_not]
  refine ⟨frames ++ [s.fb], ?_, ?_⟩
  · simp [sendInit_eq]
  · simp [sendInit_eq, flushedTrace_concat, htrace, hfirst]

end Sys2Proof.Safety
end

section
/-!
SUPPORT. The machine's invariant: one rule per state operation, then every command and every step keeps it.
-/

namespace Sys2Proof.Safety

open Sys2Proof.Machine

section
variable {s : State} (hs : Inv s)
include hs

/-! The fields the invariant does not speak of. -/

theorem Inv.setBoard (v : Board) : Inv (s.setBoard v) := ⟨hs.score, hs.lines, hs.fault, hs.trace⟩
theorem Inv.setOk (v : Bool) : Inv (s.setOk v) := ⟨hs.score, hs.lines, hs.fault, hs.trace⟩
theorem Inv.setFb (v : FrameBuffer) : Inv (s.setFb v) := ⟨hs.score, hs.lines, hs.fault, hs.trace⟩
theorem Inv.setPort (v : List HostAction) : Inv (s.setPort v) := ⟨hs.score, hs.lines, hs.fault, hs.trace⟩
theorem Inv.setReplies (v : List Byte) : Inv (s.setReplies v) := ⟨hs.score, hs.lines, hs.fault, hs.trace⟩
theorem Inv.setDraws (v : Nat) : Inv (s.setDraws v) := ⟨hs.score, hs.lines, hs.fault, hs.trace⟩
theorem Inv.drawBoard : Inv (drawBoard s) := (hs.setBoard _).setDraws _

/-! The fields it speaks of, each under its own condition. -/

theorem Inv.setScore {v : Nat} (hv : v < 2 ^ s.params.scoreWidth) : Inv (s.setScore v) :=
  ⟨hv, hs.lines, hs.fault, hs.trace⟩

theorem Inv.setLines {v : BitVec 5} (hv : v.toNat ≤ 16) : Inv (s.setLines v) := ⟨hs.score, hv, hs.fault, hs.trace⟩

theorem Inv.setFault {c : FaultCause} {w : Word} (hv : faultRecordSound (s.setFault c w)) : Inv (s.setFault c w) :=
  ⟨hs.score, hs.lines, hv, hs.trace⟩

/-! The operations that write more than one of them. -/

theorem Inv.sweep {a : SweepAcc}
    (ha : a = sweepLoop s.params.scoreWidth sweepTests 15 { board := s.board, score := s.score, lines := 0 }) :
    Inv (((s.setBoard a.board).setScore a.score).setLines (BitVec.ofNat 5 a.lines)) := by
  have hscore : a.score < 2 ^ s.params.scoreWidth := ha ▸ sweepLoop_score_lt hs.score
  have hlines : a.lines ≤ 16 := ha ▸ sweepLoop_lines_le _ _ _ _
  exact ((hs.setBoard a.board).setScore hscore).setLines ((Nat.mod_le _ _).trans hlines)

theorem Inv.flush : Inv ((sendInit s).emit (frameEvents s.fb)) := by
  have htrace := traceSound_flush hs.trace
  rw [sendInit_eq] at htrace ⊢
  exact ⟨hs.score, hs.lines, hs.fault, htrace⟩

end

/-- Reset writes every field the invariant speaks of (R251). -/
theorem inv_resetBlock (s : State) : Inv (resetBlock s) := by
  refine ⟨Nat.two_pow_pos _, Nat.zero_le 16, rfl, [], by simp, ?_⟩
  cases hp : s.params.initPolicy <;> simp [flushedTrace, hp]

/-- Every command keeps the invariant; one that faults records its own word, which can raise its fault. -/
theorem Inv.exec {i : Instr} {s t : State} (hi : decode (encode i) = .ok i) (hs : Inv s) (h : exec i s = .next t) :
    Inv t := by
  obtain ⟨rfl, rfl⟩ | ⟨rfl, rfl⟩ | ⟨rfl, rfl⟩ | ⟨rfl, rfl⟩ | ⟨rfl, a, ha, rfl⟩ | ⟨rfl, rfl⟩ | ⟨id, pos, rfl, rfl⟩ |
    ⟨id, pos, rfl, ⟨-, rfl⟩ | ⟨-, rfl⟩⟩ | ⟨id, pos, rfl, ⟨-, rfl⟩ | ⟨-, rfl⟩⟩ |
    ⟨x, y, rfl, ⟨-, rfl⟩ | ⟨hx, rfl⟩⟩ := exec_cases h
  · exact hs
  · exact (hs.setBoard _).setScore (Nat.two_pow_pos _)
  · exact hs.setFb _
  · exact hs.setFb _
  · exact hs.sweep ha
  · exact hs.flush
  · exact hs.setOk _
  · exact hs.setBoard _
  · exact hs.drawBoard.setFault ⟨id, pos, hi⟩
  · exact hs.setFb _
  · exact hs.setFault (.inl ⟨id, pos, hi⟩)
  · exact hs.setFb _
  · exact hs.setFault (.inr ⟨x, y, hi, hx⟩)

theorem Inv.step {s t : State} (hs : Inv s) (h : step s = .next t) : Inv t := by
  obtain ⟨-, rfl⟩ | ⟨act, rest, -, ⟨-, rfl⟩ | ⟨a, -, rfl⟩ | ⟨w, -, ⟨-, rfl⟩ | ⟨-, hreserved, rfl⟩ | ⟨-, i, hi, hexec⟩⟩⟩ :=
    step_cases h
  · exact hs
  · exact inv_resetBlock _
  · exact (hs.setPort rest).setReplies _
  · exact hs.setPort rest
  · exact (hs.setPort rest).setFault hreserved
  · have hword : decode (encode i) = .ok i := by rw [encode_of_decode hi, hi]
    exact (hs.setPort rest).exec hword hexec

end Sys2Proof.Safety
end

section
/-!
CERTIFICATE. The invariant of the machine (10_state.md sections 3 to 8).
-/

namespace Sys2Proof.Certificates

/-- Settles O53, by what a step can do and one rule per operation. -/
theorem everyStepKeepsTheInvariant : Obligations.EveryStepKeepsTheInvariant := fun _ _ => Safety.Inv.step

end Sys2Proof.Certificates
end

section
/-!
SUPPORT. The renderer's commands as state operations: the word of FB_SET under its mask, what each command answers, and
what the serializer sends (42_renderer.md).
-/

namespace Sys2Proof.Machine

variable {s : State} {x : BitVec 5} {y : BitVec 3}

/-- The pattern of FB_SET's row is what its mask leaves of every word of format F (R73, R76). -/
theorem formatF_masked (x : BitVec 5) (y : BitVec 3) : formatF x y &&& 0xE0F8#16 = 0x8000#16 := by
  have hmask : (0xE0F8#16 : Word) = 7#3 ++ 0#5 ++ 31#5 ++ 0#3 := by decide
  rw [hmask]
  unfold formatF
  rw [BitVec.and_append, BitVec.and_append, BitVec.and_append, BitVec.and_zero, BitVec.and_zero]
  rfl

theorem exec_fbClear : exec .fbClear s = .next (s.setFb (Vector.replicate 20 0x00#8)) := rfl

theorem exec_fbBlit : exec .fbBlit s = .next (s.setFb (blit s.board s.fb)) := rfl

theorem exec_flush : exec .flush s = .next ((sendInit s).emit (frameEvents s.fb)) := rfl

/-- Y never leaves the column: a column of the buffer is all FB_SET asks for (R163). -/
theorem pixelInRange_iff_column : pixelInRange x.toNat y.toNat = true ↔ x.toNat < 20 :=
  pixelInRange_iff.trans (and_iff_left y.isLt)

theorem exec_fbSet_of_lt (h : x.toNat < 20) :
    exec (.fbSet x y) s = .next (s.setFb (lightBit s.fb x.toNat y.toNat)) :=
  congrArg Host.Outcome.next (if_pos (pixelInRange_iff_column.mpr h))

theorem exec_fbSet_of_ge (h : 20 ≤ x.toNat) :
    exec (.fbSet x y) s = .next (s.setFault .drawRange (encode (.fbSet x y))) :=
  congrArg Host.Outcome.next (if_neg fun hin => h.not_gt (pixelInRange_iff_column.mp hin))

/-- The frame as data bytes, column by column (R172, R174). -/
theorem frameEvents_eq_finRange (f : FrameBuffer) :
    frameEvents f = (List.finRange 20).map fun x => { tag := .data, byte := f[x] } := by
  apply List.ext_getElem
  · simp [frameEvents]
  · intro i _ _
    simp [frameEvents]

end Sys2Proof.Machine
end

section
/-!
CERTIFICATE. Statements of 42_renderer.md: FB_CLEAR, FB_SET, FB_BLIT and FLUSH.
-/

namespace Sys2Proof.Certificates

open Sys2Proof.Machine

/-- Settles O38: a column of the buffer is in range, where the write lights its one bit; any other column is the
fault. -/
theorem fbSetLightsOnePixelOrHalts : Obligations.FbSetLightsOnePixelOrHalts := by
  refine ⟨formatF_masked, fun s x y => ⟨fun hx => ?_, exec_fbSet_of_ge⟩⟩
  refine ⟨_, exec_fbSet_of_lt hx, fun i b _ _ => ?_, rfl⟩
  have hlight := gridBit_lightBit s.fb y.isLt (i := x.toNat) i b
  simp [hlight, hx]

/-- Settles O40: the initialization appends its command bytes where the policy asks for them, then the frame follows,
column by column. -/
theorem flushSendsInitThenTheWholeFrame : Obligations.FlushSendsInitThenTheWholeFrame := by
  refine ⟨rfl, fun s => ⟨_, exec_flush, ?_⟩⟩
  rw [Safety.sendInit_eq, frameEvents_eq_finRange]
  exact ⟨rfl, rfl, rfl, rfl, rfl⟩

/-- Settles O37: every column of the new frame is dark, and FB_CLEAR sets no other field than FB. -/
theorem fbClearDarkensEveryPixel : Obligations.FbClearDarkensEveryPixel :=
  ⟨rfl, fun _ => ⟨_, exec_fbClear, fun _ _ => Vector.getElem_replicate _, rfl⟩⟩

/-- Settles O39: a column of the new frame is the old one, with the board row of its number where there is one. -/
theorem fbBlitOrsTheBoardIntoTheFrame : Obligations.FbBlitOrsTheBoardIntoTheFrame := by
  refine ⟨rfl, fun s => ⟨_, exec_fbBlit, fun r hr => ?_, fun x hx hright => ?_, rfl⟩⟩
  · exact (blit_getElem s.board s.fb (hr.trans (by decide))).trans (dif_pos hr)
  · exact (blit_getElem s.board s.fb hx).trans (dif_neg hright.not_gt)

end Sys2Proof.Certificates
end

section
/-!
SUPPORT. The whole of a step: every command and every action answers a next state, a halted block lets command words
go by, and only reset ends a halt (R200 to R202, R222, R226).
-/

namespace Sys2Proof.Machine

variable {s t : State}

theorem exec_nop : exec .nop s = .next s := rfl

/-- No command stops the machine: one that faults answers the halted state (R222). -/
theorem exec_answers (i : Instr) (s : State) : ∃ t, exec i s = .next t := by
  cases i <;> exact ⟨_, rfl⟩

/-- No word stops the machine, ignored, reserved or executed (R201, R202, R221). -/
theorem dispatchWord_answers (w : Word) (s : State) : ∃ t, dispatchWord w s = .next t := by
  by_cases hf : s.faultCause = .noFault
  · rw [dispatchWord_running hf]
    cases decode w with
    | error _ => exact ⟨_, rfl⟩
    | ok i => exact exec_answers i s
  · exact ⟨s, dispatchWord_halted hf⟩

theorem takeAction_answers (act : HostAction) (s : State) : ∃ t, takeAction act s = .next t := by
  cases act with
  | command w => exact dispatchWord_answers w s
  | observe _ => exact ⟨_, rfl⟩
  | reset => exact ⟨_, rfl⟩

/-- Reset is taken from any state, halted or not (R250). -/
theorem step_reset {rest : List HostAction} (hp : s.port = .reset :: rest) :
    step s = .next (resetBlock (s.setPort rest)) :=
  step_cons hp

/-- A halted block takes a command word and does nothing with it (R202). -/
theorem step_command_of_halted {w : Word} {rest : List HostAction} (hs : s.faultCause ≠ .noFault)
    (hp : s.port = .command w :: rest) : step s = .next (s.setPort rest) :=
  (step_cons hp).trans (dispatchWord_halted hs)

/-- A step that is not a reset keeps the fault of a halted block (R226). -/
theorem step_faultCause_of_halted (hs : s.faultCause ≠ .noFault) (h : step s = .next t) :
    (∃ rest, s.port = .reset :: rest) ∨ t.faultCause = s.faultCause := by
  obtain ⟨-, rfl⟩ | ⟨act, rest, hp, ⟨rfl, -⟩ | ⟨a, -, rfl⟩ | ⟨w, -, ⟨-, rfl⟩ | ⟨hrun, -⟩ | ⟨hrun, -⟩⟩⟩ := step_cases h
  · exact .inr rfl
  · exact .inl ⟨rest, hp⟩
  · exact .inr rfl
  · exact .inr rfl
  · exact absurd hrun hs
  · exact absurd hrun hs

end Sys2Proof.Machine
end

section
/-!
CERTIFICATE. Statements of 43_system.md: NOP, the halted block, and the step that always answers.
-/

namespace Sys2Proof.Certificates

open Sys2Proof.Machine

/-- Settles O13: the step of each kind of action, and a halted block's fault kept by every one but reset. -/
theorem haltedBlockIgnoresCommands : Obligations.HaltedBlockIgnoresCommands := by
  intro s hs
  refine ⟨fun w rest hp => step_command_of_halted hs hp, fun a rest hp => step_observe hp,
    fun rest hp => ⟨_, step_reset hp, rfl⟩, fun t h ht => ?_⟩
  obtain hreset | hkept := step_faultCause_of_halted hs h
  · exact hreset
  · exact absurd (hkept.symm.trans ht) hs

/-- Settles O17: with nothing pending the step answers the state itself, else what the action taken answers. -/
theorem everyStepAnswersANextState : Obligations.EveryStepAnswersANextState := by
  intro s
  cases hp : s.port with
  | nil => exact ⟨s, step_idle hp⟩
  | cons act rest =>
    rw [step_cons hp]
    exact takeAction_answers act (s.setPort rest)

/-- Settles O20: NOP's word is format S with function 0. -/
theorem nopChangesNothing : Obligations.NopChangesNothing := ⟨rfl, fun _ => exec_nop⟩

end Sys2Proof.Certificates
end

section
/-!
SUPPORT. The three faults: what a reserved word does, which command raises which cause and when, and the halted block
through any number of steps (60_exceptions.md).
-/

namespace Sys2Proof.Machine

open Sys2Proof.Statements

variable {s t : State} {w : Word} {rest : List HostAction}

/-- A running block takes a reserved word as ILLEGAL_COMMAND (R221). -/
theorem step_reserved {e : Reserved} (hs : s.faultCause = .noFault) (hp : s.port = .command w :: rest)
    (hw : decode w = .error e) : step s = .next ((s.setPort rest).setFault .illegalCommand w) := by
  have hdispatch := dispatchWord_running (w := w) (s := s.setPort rest) hs
  rw [hw] at hdispatch
  exact (step_cons hp).trans hdispatch

/-- A command that is not COMMIT, DRAW or FB_SET never faults (R220). -/
theorem exec_faultCause_of_quiet {i : Instr} (h : exec i s = .next t) (hcommit : ∀ id pos, i ≠ .commit id pos)
    (hdraw : ∀ id pos, i ≠ .draw id pos) (hfbSet : ∀ x y, i ≠ .fbSet x y) : t.faultCause = s.faultCause := by
  by_contra hchanged
  obtain ⟨-, -, ⟨id, pos, hi⟩ | ⟨id, pos, hi⟩ | ⟨x, y, hi⟩⟩ := (exec_changedByWriter h).fault (.inl hchanged)
  · exact hcommit id pos hi
  · exact hdraw id pos hi
  · exact hfbSet x y hi

/-- The faults of a command: an illegal COMMIT, a DRAW or FB_SET out of range, and no other (R220). -/
theorem exec_faultCause_iff {i : Instr} (hs : s.faultCause = .noFault) (h : exec i s = .next t) :
    t.faultCause ≠ .illegalCommand ∧
    (t.faultCause = .commitPrecondition ↔ ∃ id pos, i = .commit id pos ∧ ¬ placementLegal (s.rom id) pos s.board) ∧
    (t.faultCause = .drawRange ↔
      (∃ id pos, i = .draw id pos ∧ ¬ drawingInRange (s.rom id) pos) ∨ ∃ x y, i = .fbSet x y ∧ 20 ≤ x.toNat) := by
  cases i with
  | nop | gameClear | fbClear | fbBlit | sweep | flush | check id pos =>
    have hquiet := exec_faultCause_of_quiet h (by simp) (by simp) (by simp)
    simp [hquiet, hs]
  | commit id pos =>
    by_cases hlegal : placementLegal (s.rom id) pos s.board
    · rw [exec_commit_of_legal hlegal] at h
      cases h
      simpa [hs] using hlegal
    · rw [exec_commit_of_not_legal hlegal] at h
      cases h
      simpa using hlegal
  | draw id pos =>
    by_cases hrange : drawingInRange (s.rom id) pos
    · rw [exec_draw_of_inRange hrange] at h
      cases h
      simpa [hs] using hrange
    · rw [exec_draw_of_not_inRange hrange] at h
      cases h
      simpa using hrange
  | fbSet x y =>
    obtain hx | hx := Nat.lt_or_ge x.toNat 20
    · rw [exec_fbSet_of_lt hx] at h
      cases h
      simp [hs, hx]
    · rw [exec_fbSet_of_ge hx] at h
      cases h
      simp [hx]

/-- A step of a halted block with no reset to come writes the ports alone (R202, R226). -/
theorem step_of_halted (hs : s.faultCause ≠ .noFault) (hreset : HostAction.reset ∉ s.port) :
    ∃ port replies, step s = .next { s with port := port, replies := replies } ∧ HostAction.reset ∉ port := by
  cases hp : s.port with
  | nil => exact ⟨s.port, s.replies, step_idle hp, hreset⟩
  | cons act rest =>
    rw [hp] at hreset
    have hrest : HostAction.reset ∉ rest := fun hmem => hreset (.tail act hmem)
    cases act with
    | command w => exact ⟨rest, s.replies, step_command_of_halted hs hp, hrest⟩
    | observe a => exact ⟨rest, _, step_observe hp, hrest⟩
    | reset => exact absurd (.head rest) hreset

/-- Any number of steps of a halted block with no reset to come write the ports alone (R226). -/
theorem run_of_halted (k : Nat) (hs : s.faultCause ≠ .noFault) (hreset : HostAction.reset ∉ s.port) :
    ∃ port replies, core.run k s = .next { s with port := port, replies := replies } := by
  induction k generalizing s with
  | zero => exact ⟨s.port, s.replies, run_zero s⟩
  | succ k ih =>
    obtain ⟨port, replies, hstep, hport⟩ := step_of_halted hs hreset
    rw [run_succ hstep]
    exact ih (s := { s with port := port, replies := replies }) hs hport

end Sys2Proof.Machine
end

section
/-!
CERTIFICATE. Statements of 60_exceptions.md: the reserved word, the causes of the faults, and the fault that stays.
-/

namespace Sys2Proof.Certificates

open Sys2Proof.Machine

/-- Settles O14: through any number of steps a halted block with no reset to come writes the ports alone. -/
theorem firstFaultIsKeptUntilReset : Obligations.FirstFaultIsKeptUntilReset := by
  intro k s hs hreset
  obtain ⟨port, replies, hrun⟩ := run_of_halted k hs hreset
  exact ⟨_, hrun, rfl⟩

/-- Settles O16: a reserved word is ILLEGAL_COMMAND, any other word raises what its command raises, and that command
records its own word. -/
theorem faultCausesByCommand : Obligations.FaultCausesByCommand := by
  refine ⟨⟨rfl, rfl, rfl, rfl⟩, fun s t w rest hp hs h => ?_⟩
  obtain ⟨hhalted, -⟩ | ⟨-, ⟨e, he⟩, rfl⟩ | ⟨-, i, hi, hexec⟩ := step_command_cases hp h
  · exact absurd hs hhalted
  · simp [he]
  · obtain ⟨hillegal, hcommit, hdraw⟩ := exec_faultCause_iff (s := s.setPort rest) hs hexec
    simp only [hi, Except.ok.injEq, reduceCtorEq, exists_false, iff_false]
    refine ⟨hillegal, hcommit, hdraw, fun hfault => ?_⟩
    have hchanged : t.faultCause ≠ (s.setPort rest).faultCause := fun heq => hfault (heq.trans hs)
    obtain ⟨-, hword, -⟩ := (exec_changedByWriter hexec).fault (.inl hchanged)
    exact hword.trans (encode_of_decode hi)

/-- Settles O12: the fault is the whole of the reserved word's step. -/
theorem reservedWordRaisesIllegalCommand : Obligations.ReservedWordRaisesIllegalCommand :=
  fun _ _ _ _ hp hs hw => step_reserved hs hp hw

end Sys2Proof.Certificates
end

section
/-!
SUPPORT. The decoder read back: the fields of a built word, the command of an encoded word, and the range of numbers
under which each word is reserved (30_encoding.md sections 1 to 4).
-/

namespace Sys2Proof

section
variable (op : BitVec 3) (id x : BitVec 5) (pos : BitVec 8) (y : BitVec 3)

@[simp] theorem fieldOp_formatP : fieldOp (formatP op id pos) = op := by
  apply BitVec.eq_of_toNat_eq
  rw [fieldOp_toNat, formatP_toNat]
  omega

@[simp] theorem fieldHigh_formatP : fieldHigh (formatP op id pos) = id := by
  apply BitVec.eq_of_toNat_eq
  rw [fieldHigh_toNat, formatP_toNat]
  omega

@[simp] theorem fieldLow_formatP : fieldLow (formatP op id pos) = pos := by
  apply BitVec.eq_of_toNat_eq
  rw [fieldLow_toNat, formatP_toNat]
  omega

@[simp] theorem fieldOp_formatF : fieldOp (formatF x y) = 0b100#3 := by
  apply BitVec.eq_of_toNat_eq
  rw [fieldOp_toNat, formatF_toNat]
  simp
  omega

@[simp] theorem fieldHigh_formatF : fieldHigh (formatF x y) = x := by
  apply BitVec.eq_of_toNat_eq
  rw [fieldHigh_toNat, formatF_toNat]
  omega

@[simp] theorem fieldZ_formatF : fieldZ (formatF x y) = 0b00000#5 := by
  apply BitVec.eq_of_toNat_eq
  rw [fieldZ_toNat, formatF_toNat]
  simp
  omega

@[simp] theorem fieldY_formatF : fieldY (formatF x y) = y := by
  apply BitVec.eq_of_toNat_eq
  rw [fieldY_toNat, formatF_toNat]
  omega

end

/-- Every command is read back from its word: format S word by word, formats P and F field by field (R77). -/
theorem decode_encode (i : Instr) : decode (encode i) = .ok i := by
  cases i with
  | nop | gameClear | fbClear | fbBlit | sweep | flush => rfl
  | check id pos | commit id pos | draw id pos => simp [encode, decode]
  | fbSet x y => simp [encode, decode]

/-- The operands of every command are the fields themselves, so that they fit (R74, R75). -/
theorem Instr.wellFormed_eq_true (i : Instr) : i.wellFormed = true := by
  cases i with
  | nop | gameClear | fbClear | fbBlit | sweep | flush => rfl
  | check id pos | commit id pos | draw id pos =>
    simp only [wellFormed, Bool.and_eq_true, decide_eq_true_eq]
    omega
  | fbSet x y =>
    simp only [wellFormed, Bool.and_eq_true, decide_eq_true_eq]
    omega

/-- A word that decodes to a command of format P has its operands in `word[12:8]` and `word[7:0]` (R71). -/
theorem operands_of_formatP {w : Word} {op : BitVec 3} {id : BitVec 5} {pos : BitVec 8} (h : formatP op id pos = w) :
    id.toNat = w.toNat / 256 % 32 ∧ pos.toNat = w.toNat % 256 := by
  rw [← h, ← fieldHigh_toNat, ← fieldLow_toNat]
  simp

/-- A word that decodes to FB_SET has its operands in `word[12:8]` and `word[2:0]` (R73). -/
theorem operands_of_formatF {w : Word} {x : BitVec 5} {y : BitVec 3} (h : formatF x y = w) :
    x.toNat = w.toNat / 256 % 32 ∧ y.toNat = w.toNat % 8 := by
  rw [← h, ← fieldHigh_toNat, ← fieldY_toNat]
  simp

/-! ### The reserved words -/

/-- The functions 0 to 5 of format S are assigned, and no other (R72). -/
theorem decodeFunct_eq_error_iff {f : BitVec 8} {e : Reserved} :
    decodeFunct f = .error e ↔ 6 ≤ f.toNat ∧ e = .unassignedFunct := by
  have hassigned : f.toNat < 6 ↔
      f = 0x00#8 ∨ f = 0x01#8 ∨ f = 0x02#8 ∨ f = 0x03#8 ∨ f = 0x04#8 ∨ f = 0x05#8 := by
    simp only [← BitVec.toNat_inj, BitVec.toNat_ofNat]
    omega
  unfold decodeFunct
  rw [← Nat.not_lt, hassigned]
  split_ifs <;> simp [*, @eq_comm _ _ e]

/-- The reserved words field by field: an unassigned function or a Z that is not 0 in format S, a Z that is not 0 in
format F, an unassigned opcode (R78). -/
theorem decode_eq_error_iff {w : Word} {e : Reserved} :
    decode w = .error e ↔
      (fieldOp w = 0b000#3 ∧ fieldHigh w = 0b00000#5 ∧ 6 ≤ (fieldLow w).toNat ∧ e = .unassignedFunct) ∨
      (fieldOp w = 0b000#3 ∧ fieldHigh w ≠ 0b00000#5 ∧ e = .nonzeroZInFormatS) ∨
      (fieldOp w = 0b100#3 ∧ fieldZ w ≠ 0b00000#5 ∧ e = .nonzeroZInFormatF) ∨
      (5 ≤ (fieldOp w).toNat ∧ e = .unassignedOpcode) := by
  have hop : 5 ≤ (fieldOp w).toNat ↔
      fieldOp w ≠ 0b000#3 ∧ fieldOp w ≠ 0b001#3 ∧ fieldOp w ≠ 0b010#3 ∧ fieldOp w ≠ 0b011#3 ∧ fieldOp w ≠ 0b100#3 := by
    generalize fieldOp w = op
    revert op
    decide
  rw [hop]
  unfold decode
  split_ifs <;> simp [*, decodeFunct_eq_error_iff, @eq_comm _ _ e]

theorem decode_eq_unassignedFunct_iff {w : Word} :
    decode w = .error .unassignedFunct ↔ 0x0006 ≤ w.toNat ∧ w.toNat ≤ 0x00FF := by
  simp only [decode_eq_error_iff, ← BitVec.toNat_inj, fieldOp_toNat, fieldHigh_toNat, fieldLow_toNat,
    BitVec.toNat_ofNat, reduceCtorEq, and_false, or_false, and_true]
  omega

theorem decode_eq_nonzeroZInFormatS_iff {w : Word} :
    decode w = .error .nonzeroZInFormatS ↔ 0x0100 ≤ w.toNat ∧ w.toNat < 0x2000 := by
  simp only [decode_eq_error_iff, ne_eq, ← BitVec.toNat_inj, fieldOp_toNat, fieldHigh_toNat, BitVec.toNat_ofNat,
    reduceCtorEq, and_false, or_false, false_or, and_true]
  omega

theorem decode_eq_nonzeroZInFormatF_iff {w : Word} :
    decode w = .error .nonzeroZInFormatF ↔ 0x8000 ≤ w.toNat ∧ w.toNat < 0xA000 ∧ w.toNat / 8 % 32 ≠ 0 := by
  simp only [decode_eq_error_iff, ne_eq, ← BitVec.toNat_inj, fieldOp_toNat, fieldZ_toNat, BitVec.toNat_ofNat,
    reduceCtorEq, and_false, or_false, false_or, and_true]
  omega

theorem decode_eq_unassignedOpcode_iff {w : Word} : decode w = .error .unassignedOpcode ↔ 0xA000 ≤ w.toNat := by
  simp only [decode_eq_error_iff, fieldOp_toNat, reduceCtorEq, and_false, false_or, and_true]
  omega

end Sys2Proof
end

section
/-!
CERTIFICATE. The statements of 30_encoding.md sections 1 to 4 about the decoder and the encoder.
-/

namespace Sys2Proof.Certificates

/-- Settles O2, command by command of the encoder. -/
theorem decodeOfEncodeIsTheCommand : Obligations.DecodeOfEncodeIsTheCommand :=
  fun i => ⟨i.wellFormed_eq_true, decode_encode i⟩

/-- Settles O3, branch by branch of the decoder. -/
theorem encodeOfDecodeIsTheWord : Obligations.EncodeOfDecodeIsTheWord := fun _ _ => encode_of_decode

/-- Settles O5: a decoded word is the word of its command, whose fields are the operands. -/
theorem operandFieldsAreReadUnchanged : Obligations.OperandFieldsAreReadUnchanged := by
  refine ⟨fun w id pos h => ?_, fun w x y h => operands_of_formatF (encode_of_decode h)⟩
  obtain h | h | h := h <;> exact operands_of_formatP (encode_of_decode h)

/-- Settles O6, range by range of R78's table. -/
theorem reservedWordsByRange : Obligations.ReservedWordsByRange := fun _ =>
  ⟨decode_eq_unassignedFunct_iff, decode_eq_nonzeroZInFormatS_iff, decode_eq_nonzeroZInFormatF_iff,
    decode_eq_unassignedOpcode_iff⟩

/-- Settles O1: each word written out is the word of its command. -/
theorem writtenWordsDecode : Obligations.WrittenWordsDecode :=
  ⟨decode_encode .nop, decode_encode .gameClear, decode_encode .fbClear, decode_encode .fbBlit, decode_encode .sweep,
    decode_encode .flush, decode_encode (.check 8 0x05), decode_encode (.commit 8 0x05), decode_encode (.draw 8 0x8B),
    decode_encode (.fbSet 16 7)⟩

end Sys2Proof.Certificates
end

section
/-!
SUPPORT. The sweep's loop as a compaction: a clear keeps the rows that are not full, in order, below one more empty
row, and 32 tests leave no row full (R142 to R147).
-/

namespace Sys2Proof.Machine

open Sys2Proof.Safety Sys2Proof.Statements

/-- The shift of a cleared row takes it out and puts an empty row on top (R142, R145). -/
theorem shiftDown_toList (b : Board) {r : Nat} (hr : r < 16) :
    (shiftDown b r).toList = 0x00#8 :: b.toList.eraseIdx r := by
  apply List.ext_getElem
  · simp [List.length_eraseIdx, hr]
  · intro i hi _
    have hshift := shiftDown_getElem b hr (i := i) (by simpa using hi)
    cases i with
    | zero => simpa using hshift
    | succ i =>
      simp only [Vector.getElem_toList, hshift, List.getElem_cons_succ, List.getElem_eraseIdx]
      obtain hle | hgt := Nat.lt_or_ge i r
      · simp [hle, Nat.succ_le_of_lt hle]
      · simp [hgt.not_gt, Nat.not_le.mpr (Nat.lt_succ_of_le hgt)]

/-- Taking out an entry that a filter refuses leaves what the filter keeps. -/
theorem filter_eraseIdx_of_not {α : Type} (p : α → Bool) (l : List α) {r : Nat} (hr : r < l.length)
    (hp : p l[r] = false) : (l.eraseIdx r).filter p = l.filter p := by
  induction l generalizing r with
  | nil => rfl
  | cons x l ih =>
    cases r with
    | zero => simpa using (List.filter_cons_of_neg (by simpa using hp)).symm
    | succ r =>
      simp only [List.eraseIdx_cons_succ, List.filter_cons]
      rw [ih (by simpa using hr) (by simpa using hp)]

/-- The clear of a full row keeps the rows that are not full, under one more empty row. -/
theorem rowsKept_shiftDown (b : Board) {r : Nat} (hr : r < 16) (hfull : b[r] = 0xFF#8) :
    rowsKept (shiftDown b r) = 0x00#8 :: rowsKept b := by
  unfold rowsKept
  rw [shiftDown_toList b hr, List.filter_cons_of_pos (by decide), filter_eraseIdx_of_not _ _ (by simpa using hr)]
  simp [hfull]

theorem rowsKept_length_le (b : Board) : (rowsKept b).length ≤ 16 :=
  (List.length_filter_le _ _).trans (by simp)

/-- A board with no full row keeps all its rows. -/
theorem rowsKept_eq_toList {b : Board} (h : ∀ r, (hr : r < 16) → b[r] ≠ 0xFF#8) : rowsKept b = b.toList := by
  refine List.filter_eq_self.mpr fun row hrow => ?_
  obtain ⟨r, hr, rfl⟩ := List.mem_iff_getElem.mp hrow
  simpa using h r (by simpa using hr)

/-- The rows of a board are those kept and the full ones. -/
theorem rowsKept_length_add_full (b : Board) :
    (rowsKept b).length + (b.toList.filter (· = 0xFF#8)).length = 16 := by
  have h := List.length_eq_length_filter_add (l := b.toList) (· = 0xFF#8)
  simp only [Vector.length_toList, ← decide_not] at h
  exact (Nat.add_comm _ _).trans h.symm

/-- What the loop has of board `b` at any turn: the kept rows of `b` under an empty row for each line counted. -/
def CompactedFrom (b : Board) (a : SweepAcc) : Prop :=
  rowsKept a.board = List.replicate a.lines 0x00#8 ++ rowsKept b

theorem CompactedFrom.clearRow {b : Board} {w r : Nat} {a : SweepAcc} (hr : r < 16) (hfull : a.board[r] = 0xFF#8)
    (h : CompactedFrom b a) : CompactedFrom b (clearRow w r a) := by
  refine (rowsKept_shiftDown a.board hr hfull).trans ?_
  rw [h]
  rfl

/-- With a test for each row yet to reach and each row yet to keep out, the loop leaves no row full (R146). -/
theorem sweepLoop_no_full (w n r : Nat) (a : SweepAcc) (hr : r < 16)
    (hbelow : ∀ i, (hi : i < 16) → r < i → a.board[i] ≠ 0xFF#8) (hn : r + 16 < n + (rowsKept a.board).length) :
    ∀ i, (hi : i < 16) → (sweepLoop w n r a).board[i] ≠ 0xFF#8 := by
  induction n generalizing r a with
  | zero =>
    have := rowsKept_length_le a.board
    omega
  | succ n ih =>
    by_cases hfull : a.board[r] = 0xFF#8
    · rw [sweepLoop_full hr hfull]
      refine ih r _ hr (fun i hi hri => ?_) ?_
      · have hshift := shiftDown_getElem a.board hr hi
        have h0 : i ≠ 0 := by omega
        rw [if_neg h0, if_neg hri.not_ge] at hshift
        exact fun he => hbelow i hi hri (hshift.symm.trans he)
      · have hkept : (rowsKept (clearRow w r a).board).length = (rowsKept a.board).length + 1 :=
          congrArg List.length (rowsKept_shiftDown a.board hr hfull)
        omega
    · have hfrom : ∀ i, (hi : i < 16) → r ≤ i → a.board[i] ≠ 0xFF#8 := fun i hi hle => by
        obtain rfl | hlt := hle.eq_or_lt
        · exact hfull
        · exact hbelow i hi hlt
      cases r with
      | zero =>
        rw [sweepLoop_exit hfull]
        exact fun i hi => hfrom i hi (Nat.zero_le i)
      | succ r =>
        rw [sweepLoop_up hr hfull]
        exact ih r a (by omega) (fun i hi hlt => hfrom i hi hlt) (by omega)

/-- On a board with no full row the loop does nothing. -/
theorem sweepLoop_of_no_full (w n r : Nat) (a : SweepAcc) (hr : r < 16)
    (h : ∀ i, (hi : i < 16) → a.board[i] ≠ 0xFF#8) : sweepLoop w n r a = a := by
  induction n generalizing r with
  | zero => rfl
  | succ n ih =>
    cases r with
    | zero => exact sweepLoop_exit (h 0 hr)
    | succ r => rw [sweepLoop_up hr (h (r + 1) hr), ih r (by omega)]

/-- Each clear adds one to a SCORE short of its top (R143). -/
theorem sweepLoop_score {w n r v : Nat} {b : Board} (hv : v < 2 ^ w) :
    (sweepLoop w n r { board := b, score := v, lines := 0 }).score =
      min (v + (sweepLoop w n r { board := b, score := v, lines := 0 }).lines) (2 ^ w - 1) := by
  refine sweepLoop_keeps (P := fun a => a.score = min (v + a.lines) (2 ^ w - 1)) (fun r a h => ?_) n r _ ?_
  · show satInc w a.score = min (v + (a.lines + 1)) (2 ^ w - 1)
    rw [satInc_eq_min (by omega)]
    omega
  · show v = min (v + 0) (2 ^ w - 1)
    omega

/-- What SWEEP of a board leaves: the kept rows under an empty row for each line it counts, and no row full (R147). -/
structure SweepResult (b : Board) (a : SweepAcc) : Prop where
  rows : a.board.toList = List.replicate a.lines 0x00#8 ++ rowsKept b
  count : a.lines + (rowsKept b).length = 16
  notFull : ∀ r, (hr : r < 16) → a.board[r] ≠ 0xFF#8

theorem sweepLoop_result (w v : Nat) (b : Board) :
    SweepResult b (sweepLoop w sweepTests 15 { board := b, score := v, lines := 0 }) := by
  have hkept : CompactedFrom b (sweepLoop w sweepTests 15 { board := b, score := v, lines := 0 }) :=
    sweepLoop_keeps_of_full (P := CompactedFrom b) (fun _ _ => .clearRow) sweepTests 15 _ (by decide) rfl
  have hnone := sweepLoop_no_full w sweepTests 15 { board := b, score := v, lines := 0 } (by decide)
    (fun i hi hlt => by omega) (by simp only [sweepTests]; omega)
  have hrows := (rowsKept_eq_toList hnone).symm.trans hkept
  refine ⟨hrows, ?_, hnone⟩
  simpa using (congrArg List.length hrows).symm

/-- The lines counted fit LINES (R36). -/
theorem SweepResult.lines_toNat {b : Board} {a : SweepAcc} (h : SweepResult b a) :
    (BitVec.ofNat 5 a.lines).toNat = a.lines := by
  have := h.count
  simp only [BitVec.toNat_ofNat]
  omega

/-- What SWEEP answers. -/
theorem exec_sweep (s : State) :
    ∃ a, SweepResult s.board a ∧
      (scoreFits s → a.score = min (s.score + a.lines) (2 ^ s.params.scoreWidth - 1)) ∧
      exec .sweep s = .next (((s.setBoard a.board).setScore a.score).setLines (BitVec.ofNat 5 a.lines)) :=
  ⟨_, sweepLoop_result s.params.scoreWidth s.score s.board, sweepLoop_score, rfl⟩

/-- SWEEP counts the full rows in LINES and, short of saturation, in SCORE, and leaves none (R142 to R144). -/
theorem exec_sweep_full_rows {s : State} (hscore : s.score + 16 < 2 ^ s.params.scoreWidth) :
    ∃ t, exec .sweep s = .next t ∧ t.lines.toNat = (s.board.toList.filter (· = 0xFF#8)).length ∧
      t.score = s.score + (s.board.toList.filter (· = 0xFF#8)).length ∧
      ∀ r, (hr : r < 16) → t.board[r] ≠ 0xFF#8 := by
  obtain ⟨a, hresult, hsum, hexec⟩ := exec_sweep s
  have hcount := hresult.count
  have hfull := rowsKept_length_add_full s.board
  have hlines : a.lines = (s.board.toList.filter (· = 0xFF#8)).length := by omega
  rw [← hlines]
  refine ⟨_, hexec, hresult.lines_toNat, ?_, hresult.notFull⟩
  have hmin := hsum (show s.score < 2 ^ s.params.scoreWidth by omega)
  simp only [State.setLines_score, State.setScore_score]
  omega

/-- SWEEP of a board with no full row counts no line and changes nothing else (R144). -/
theorem exec_sweep_of_no_full {s : State} (h : ∀ r, (hr : r < 16) → s.board[r] ≠ 0xFF#8) :
    exec .sweep s = .next (s.setLines 0) := by
  have hloop := sweepLoop_of_no_full s.params.scoreWidth sweepTests 15
    { board := s.board, score := s.score, lines := 0 } (by decide) h
  show execSweep s = _
  simp only [execSweep, hloop]
  rfl

end Sys2Proof.Machine
end

section
/-!
SUPPORT. The occupied cells of a board, as a sum over its rows: an empty row has none and a full row eight.
-/

namespace Sys2Proof.Safety

open Sys2Proof.Machine Sys2Proof.Statements

theorem litCount_eq_sum_popcount {n : Nat} (g : Grid n) : litCount g = (g.toList.map popcount).sum := rfl

/-- The cells of a board are those of its kept rows and eight for each other row. -/
theorem litCount_eq_rowsKept (b : Board) :
    litCount b = ((rowsKept b).map popcount).sum + 8 * (16 - (rowsKept b).length) := by
  have hfull : ∀ row ∈ b.toList.filter (· = 0xFF#8), popcount row = 8 := by
    intro row hrow
    rw [of_decide_eq_true (List.mem_filter.mp hrow).2]
    rfl
  have hcount := rowsKept_length_add_full b
  have hsplit := List.sum_map_filter_add_sum_map_filter_not (· = 0xFF#8) popcount b.toList
  rw [List.map_congr_left hfull, List.map_const', List.sum_replicate, smul_eq_mul] at hsplit
  change _ + ((rowsKept b).map popcount).sum = litCount b at hsplit
  omega

/-- Each line a sweep counts took eight cells with it (R146). -/
theorem litCount_of_sweepResult {b : Board} {a : SweepAcc} (h : SweepResult b a) :
    litCount b = litCount a.board + 8 * a.lines := by
  have hrows : litCount a.board = ((rowsKept b).map popcount).sum := by
    rw [litCount_eq_sum_popcount, h.rows]
    simp [show popcount 0x00#8 = 0 from rfl]
  have hcount := h.count
  rw [litCount_eq_rowsKept, hrows]
  omega

end Sys2Proof.Safety
end

section
/-!
SUPPORT. The sweep of the two bottom rows (R148).
-/

namespace Sys2Proof.Machine

open Sys2Proof.Statements

/-- With rows 14 and 15 full and no other, the rows kept are the fourteen above. -/
theorem rowsKept_of_two_bottom_full {b : Board} (h14 : b[14] = 0xFF#8) (h15 : b[15] = 0xFF#8)
    (habove : ∀ r, (h : r < 14) → b[r] ≠ 0xFF#8) : rowsKept b = b.toList.take 14 := by
  have hbottom : b.toList.drop 14 = [0xFF#8, 0xFF#8] := by
    apply List.ext_getElem
    · simp
    · intro i hi _
      obtain rfl | rfl : i = 0 ∨ i = 1 := by simp at hi; omega
      · simpa using h14
      · simpa using h15
  have htop : ∀ row ∈ b.toList.take 14, decide (row ≠ 0xFF#8) = true := by
    intro row hrow
    obtain ⟨r, hr, rfl⟩ := List.mem_iff_getElem.mp hrow
    have hr14 : r < 14 := by simp at hr; omega
    simpa using habove r hr14
  calc rowsKept b = (b.toList.take 14 ++ b.toList.drop 14).filter (· ≠ 0xFF#8) := by rw [List.take_append_drop]; rfl
    _ = b.toList.take 14 := by rw [List.filter_append, List.filter_eq_self.mpr htop, hbottom]; simp

end Sys2Proof.Machine
end

section
/-!
CERTIFICATE. The statements of 41_line_clear.md, and of SWEEP in 20_memory.md section 2.
-/

namespace Sys2Proof.Certificates

open Sys2Proof.Machine

/-- Settles O31: the rows the loop leaves, its count of lines and its SCORE. -/
theorem sweepEqualsCompaction : Obligations.SweepEqualsCompaction := by
  intro s hfits
  obtain ⟨a, hresult, hscore, hexec⟩ := exec_sweep s
  have hlines : 16 - (Statements.rowsKept s.board).length = a.lines := by
    have := hresult.count
    omega
  rw [hlines]
  exact ⟨_, hexec, hresult.rows, hresult.lines_toNat, hscore hfits, rfl⟩

/-- Settles O32, from the rows of a shifted board. -/
theorem rowShiftIsSimultaneous : Obligations.RowShiftIsSimultaneous := by
  intro b cleared k hcleared hk
  rw [shiftDown_getElem b hcleared hk]
  refine ⟨fun h0 => if_pos h0, fun h1 hle => ?_, fun hlt => ?_⟩
  · rw [if_neg (by omega), if_pos hle]
  · rw [if_neg (by omega), if_neg (by omega)]

/-- Settles O33: the first SWEEP leaves no row full. -/
theorem secondSweepClearsNothing : Obligations.SecondSweepClearsNothing := by
  intro s
  obtain ⟨a, hresult, -, hexec⟩ := exec_sweep s
  exact ⟨_, hexec, exec_sweep_of_no_full hresult.notFull⟩

/-- Settles O34: the fourteen rows kept lie under two empty ones. -/
theorem sweepClearsTheTwoBottomRows : Obligations.SweepClearsTheTwoBottomRows := by
  intro s h14 h15 habove hscore
  obtain ⟨a, hresult, hsum, hexec⟩ := exec_sweep s
  have hkept := rowsKept_of_two_bottom_full h14 h15 habove
  have hlines : a.lines = 2 := by simpa [hkept] using hresult.count
  have hrows : ∀ r, (hr : r < 16) → a.board[r] = (0x00#8 :: 0x00#8 :: s.board.toList.take 14)[r]'(by simpa) := by
    intro r hr
    rw [← Vector.getElem_toList (by simpa)]
    simp only [hresult.rows, hlines, hkept]
    rfl
  refine ⟨_, hexec, fun r hr => ?_, hrows 0 _, hrows 1 _, ?_, ?_⟩
  · simpa using hrows (r + 2) (by omega)
  · have := hsum (show s.score < _ by omega)
    simp only [State.setLines_score, State.setScore_score]
    omega
  · simp [hlines]

/-- Settles O35: the lines counted are the full rows, short of saturation one to SCORE each, and none is left. -/
theorem sweepClearsWhatACommitCompleted : Obligations.SweepClearsWhatACommitCompleted := by
  intro s id pos hlegal _ hscore
  have hcommit := exec_commit_of_legal hlegal
  obtain ⟨u, hsweep⟩ := exec_sweep_full_rows (s := s.setBoard (lightCells (cells (s.rom id) pos) s.board)) hscore
  exact ⟨_, u, hcommit, hsweep⟩

/-- Settles O36: the cells of the full rows are gone, all others are kept. -/
theorem sweepRemovesEightCellsPerLine : Obligations.SweepRemovesEightCellsPerLine := by
  intro s
  obtain ⟨a, hresult, -, hexec⟩ := exec_sweep s
  have hcells := Safety.litCount_of_sweepResult hresult
  have hcount := hresult.count
  refine ⟨_, hexec, ?_, ?_⟩ <;> simp only [State.setLines_lines, hresult.lines_toNat]
  · exact hcells
  · omega

end Sys2Proof.Certificates
end

section
/-!
SUPPORT. The geometry walk as a set of cells: no cell twice, one for each bit of the mask, never the offset (2, 2)
(40_board_placement.md section 1).
-/

namespace Sys2Proof.Machine

open Sys2Proof.Safety

variable {m : Byte} {pos : BitVec 8}

/-- The walk's list, with the operands as numbers (R102, R104). -/
theorem cells_eq_map (m : Byte) (pos : BitVec 8) :
    cells m pos = ((List.range 8).filter fun k => m.getLsbD (7 - k)).map
      (fun k => (pos.toNat % 8 + k % 3, pos.toNat / 8 + k / 3)) := by
  rw [← posCol_eq, ← posRow_eq]
  rfl

/-- Different walk steps have different offsets. -/
theorem cells_nodup (m : Byte) (pos : BitVec 8) : (cells m pos).Nodup := by
  rw [cells_eq_map]
  refine (List.nodup_range.filter _).map fun k l h => ?_
  simp only [Prod.mk.injEq] at h
  omega

/-- The walk reads the eight bits of the mask, from bit 7 down. -/
theorem cells_length (m : Byte) (pos : BitVec 8) : (cells m pos).length = popcount m := by
  have hdown : (List.range 8).map (7 - ·) = (List.range 8).reverse := by decide
  calc (cells m pos).length = (List.range 8).countP (m.getLsbD ∘ (7 - ·)) := by
        rw [cells_eq_map, List.length_map, List.countP_eq_length_filter]
        rfl
    _ = (List.range 8).countP m.getLsbD := by rw [← List.countP_map, hdown, List.countP_reverse]
    _ = popcount m := List.countP_eq_length_filter

/-- Offset (2, 2) would be walk step 8, which no mask has. -/
theorem corner_notMem_cells (m : Byte) (pos : BitVec 8) : (pos.toNat % 8 + 2, pos.toNat / 8 + 2) ∉ cells m pos := by
  rw [mem_cells]
  rintro ⟨k, hk, -, hc, hr⟩
  omega

/-- A mask that is not empty has a cell. -/
theorem exists_mem_cells (h : m ≠ 0x00#8) : ∃ c r, (c, r) ∈ cells m pos := by
  by_contra! hnone
  refine h (BitVec.eq_of_getLsbD_eq fun b hb => ?_)
  by_contra hbit
  have hm : m.getLsbD (7 - (7 - b)) = true := by
    rw [show 7 - (7 - b) = b by omega]
    simpa using hbit
  exact hnone _ _ (mem_cells.mpr ⟨7 - b, by omega, hm, rfl, rfl⟩)

end Sys2Proof.Machine
end

section
/-!
SUPPORT. The lit bits of a grid as a set, and what lighting dark cells adds to it (40_board_placement.md section 4).
-/

namespace Sys2Proof.Safety

open Sys2Proof.Machine

/-- The lit bits `(b, i)` of a grid, bit `b` of byte `i`: written like the cells of a walk. -/
def litCells {n : Nat} (g : Grid n) : Finset (Nat × Nat) :=
  (Finset.range 8 ×ˢ Finset.range n).filter fun cell => gridBit g cell.2 cell.1 = true

theorem mem_litCells {n : Nat} {g : Grid n} {b i : Nat} :
    (b, i) ∈ litCells g ↔ b < 8 ∧ i < n ∧ gridBit g i b = true := by
  simp [litCells, and_assoc]

theorem popcount_eq_card (m : Byte) : popcount m = ((Finset.range 8).filter fun b => m.getLsbD b = true).card := by
  simp only [popcount, Finset.card_def, Finset.filter_val, Finset.range_val, Multiset.range, Multiset.filter_coe,
    Multiset.coe_card, Bool.decide_eq_true]

theorem litCount_eq_card {n : Nat} (g : Grid n) : litCount g = (litCells g).card := by
  have hrow : ∀ i : Fin g.toList.length,
      ((Finset.range 8).filter fun b => gridBit g i b = true).card = popcount g.toList[i] := by
    intro i
    have hi : i.val < n := by simpa using i.isLt
    simp only [popcount_eq_card, gridBit_of_lt g hi]
    rfl
  calc litCount g = ∑ i : Fin g.toList.length, popcount g.toList[i] :=
        (Fin.sum_univ_fun_getElem g.toList popcount).symm
    _ = ∑ i ∈ Finset.range g.toList.length, ((Finset.range 8).filter fun b => gridBit g i b = true).card := by
        rw [Finset.sum_range, Finset.sum_congr rfl fun i _ => hrow i]
    _ = (litCells g).card := by
        rw [Vector.length_toList, litCells, Finset.card_filter, Finset.sum_product_right]
        simp only [Finset.card_filter]

/-- Lighting cells that are dark and apart adds their number (R117). -/
theorem litCount_lightCells {n : Nat} {g : Grid n} {cs : List (Nat × Nat)} (hapart : cs.Nodup)
    (hdark : ∀ c r, (c, r) ∈ cs → c < 8 ∧ r < n ∧ gridBit g r c = false) :
    litCount (lightCells cs g) = litCount g + cs.length := by
  have hlit : litCells (lightCells cs g) = litCells g ∪ cs.toFinset := by
    ext ⟨c, r⟩
    have hbit := gridBit_lightCells cs (fun cell hcell => (hdark cell.1 cell.2 hcell).1) g r c
    simp only [mem_litCells, Finset.mem_union, List.mem_toFinset, hbit, Bool.or_eq_true, decide_eq_true_eq]
    constructor
    · rintro ⟨hc, hr, h | ⟨-, h⟩⟩
      · exact .inl ⟨hc, hr, h⟩
      · exact .inr h
    · rintro (⟨hc, hr, h⟩ | h)
      · exact ⟨hc, hr, .inl h⟩
      · obtain ⟨hc, hr, -⟩ := hdark c r h
        exact ⟨hc, hr, .inr ⟨hr, h⟩⟩
  have hdisjoint : Disjoint (litCells g) cs.toFinset := by
    refine Finset.disjoint_left.mpr fun cell hold hnew => ?_
    obtain ⟨-, -, hbit⟩ := mem_litCells.mp hold
    obtain ⟨-, -, hfree⟩ := hdark cell.1 cell.2 (List.mem_toFinset.mp hnew)
    exact absurd (hbit.symm.trans hfree) (by decide)
  rw [litCount_eq_card, litCount_eq_card, hlit, Finset.card_union_of_disjoint hdisjoint,
    List.toFinset_card_of_nodup hapart]

end Sys2Proof.Safety
end

section
/-!
SUPPORT. COMMIT and its own cells; a piece at the preview's sentinel (40_board_placement.md sections 3 to 5).
-/

namespace Sys2Proof.Machine

open Sys2Proof.Statements

variable {m : Byte} {id : BitVec 5} {pos : BitVec 8} {s : State}

/-- A piece that has a cell is not legal again where it lies (R116). -/
theorem not_placementLegal_of_committed {b : Board} (hm : m ≠ 0x00#8) (hlegal : placementLegal m pos b) :
    ¬ placementLegal m pos (lightCells (cells m pos) b) := by
  intro hagain
  rw [← legal_iff_placementLegal, legal_iff] at hlegal hagain
  obtain ⟨c, r, hcell⟩ := exists_mem_cells (pos := pos) hm
  obtain ⟨-, hr, hfree⟩ := hagain c r hcell
  have hlit := (gridBit_lightCells_cells b (fun c r h => (hlegal c r h).1) hr).mpr (.inr (mem_cells.mp hcell))
  exact absurd (hlit.symm.trans hfree) (by decide)

/-- A piece at the sentinel lies in columns 17 to 19 of the buffer, pixel rows 3 to 5 (R121). -/
theorem pieceCell_at_sentinel {c r : Nat} (h : pieceCell m 0x8B#8 c r) : 17 ≤ r ∧ r ≤ 19 ∧ 3 ≤ c ∧ c ≤ 5 := by
  obtain ⟨k, hk, -, rfl, rfl⟩ := h
  simp only [BitVec.toNat_ofNat]
  omega

theorem drawingInRange_at_sentinel (m : Byte) : drawingInRange m 0x8B#8 := by
  intro k hk hm
  have := pieceCell_at_sentinel ⟨k, hk, hm, rfl, rfl⟩
  omega

theorem not_placementLegal_at_sentinel {b : Board} (hm : m ≠ 0x00#8) : ¬ placementLegal m 0x8B#8 b := by
  intro hlegal
  rw [← legal_iff_placementLegal, legal_iff] at hlegal
  obtain ⟨c, r, hcell⟩ := exists_mem_cells (pos := 0x8B#8) hm
  obtain ⟨-, hr, -⟩ := hlegal c r hcell
  have := pieceCell_at_sentinel (mem_cells.mp hcell)
  omega

/-- The empty mask is legal everywhere (R109). -/
theorem placementLegal_zero (b : Board) : placementLegal 0x00#8 pos b := by
  rw [← legal_iff_placementLegal]
  rfl

theorem exec_check_of_legal (h : placementLegal (s.rom id) pos s.board) :
    exec (.check id pos) s = .next (s.setOk true) := by
  rw [exec_check, legal_iff_placementLegal.mpr h]

theorem exec_check_of_not_legal (h : ¬ placementLegal (s.rom id) pos s.board) :
    exec (.check id pos) s = .next (s.setOk false) := by
  rw [exec_check, Bool.eq_false_iff.mpr (mt legal_iff_placementLegal.mp h)]

end Sys2Proof.Machine
end

section
/-!
CERTIFICATE. Derived statements of 40_board_placement.md: the walk, what a COMMIT adds, a COMMIT repeated, the preview's
sentinel, and the board after COMMIT_PRECONDITION.
-/

namespace Sys2Proof.Certificates

open Sys2Proof.Machine

/-- Settles O28, from the walk's list in numbers. -/
theorem walkVisitsTheMaskCellsOnce : Obligations.WalkVisitsTheMaskCellsOnce := fun m pos =>
  ⟨cells_eq_map m pos, cells_nodup m pos, cells_length m pos, corner_notMem_cells m pos⟩

/-- Settles O25: the cells of a legal piece are dark and apart, one for each bit of its mask. -/
theorem commitAddsPopcountCells : Obligations.CommitAddsPopcountCells := by
  intro s id pos hlegal
  have hdark := legal_iff.mp (legal_iff_placementLegal.mpr hlegal)
  refine ⟨_, exec_commit_of_legal hlegal, ?_, fun c r hbit => ?_⟩
  · rw [← cells_length (s.rom id) pos]
    exact Safety.litCount_lightCells (cells_nodup _ _) hdark
  · have hlight := gridBit_lightCells (cells (s.rom id) pos) (fun cell h => (hdark cell.1 cell.2 h).1) s.board r c
    exact hlight.trans (by rw [hbit, Bool.true_or])

/-- Settles O26: after the first COMMIT the piece's own cells are occupied. -/
theorem repeatedCommitFaults : Obligations.RepeatedCommitFaults := by
  intro s id pos hm hlegal
  refine ⟨_, _, exec_commit_of_legal hlegal, exec_commit_of_not_legal ?_, rfl, rfl⟩
  exact not_placementLegal_of_committed hm hlegal

/-- Settles O30: at the sentinel a cell is in the buffer and below the board. -/
theorem previewIsInsideTheBufferAndOffTheBoard : Obligations.PreviewIsInsideTheBufferAndOffTheBoard := by
  refine ⟨rfl, fun m c r => pieceCell_at_sentinel, fun s id => ?_, fun s id hm => ?_, fun s id hm => ?_⟩
  · exact ⟨_, exec_draw_of_inRange (drawingInRange_at_sentinel _), rfl⟩
  · have hoff := not_placementLegal_at_sentinel (b := s.board) hm
    exact ⟨exec_check_of_not_legal hoff, _, exec_commit_of_not_legal hoff, rfl⟩
  · have hlegal : Statements.placementLegal (s.rom id) 0x8B#8 s.board := hm ▸ placementLegal_zero s.board
    refine ⟨exec_check_of_legal hlegal, ?_⟩
    rw [exec_commit_of_legal hlegal, hm]
    rfl

/-- Settles O24: an illegal COMMIT draws the sixteen rows. -/
theorem unspecifiedBoardIsFreeValues : Obligations.UnspecifiedBoardIsFreeValues := fun s _ _ illegal =>
  ⟨_, exec_commit_of_not_legal illegal, fun r hr => drawGrid_getElem 16 s.draws r hr, rfl⟩

end Sys2Proof.Certificates
end

section
/-!
SUPPORT. A step as the command of its word, the frame of a fault, and what every step keeps of SCORE, the sink trace and
the parameters.
-/

namespace Sys2Proof.Machine

variable {s t : State}

/-- A running block does what the command of its next word does (R201). -/
theorem step_decoded {w : Word} {rest : List HostAction} {i : Instr} (hp : s.port = .command w :: rest)
    (hs : s.faultCause = .noFault) (hi : decode w = .ok i) : step s = exec i (s.setPort rest) := by
  have hdispatch := dispatchWord_running (w := w) (s := s.setPort rest) hs
  rw [hi] at hdispatch
  exact (step_cons hp).trans hdispatch

/-- The word of a command put before all that is pending is the next word, and leaves the port as it was. -/
theorem step_withFetchWord_encode {i : Instr} (hs : s.faultCause = .noFault) :
    step (s.withFetchWord 16 (encode i).toNat) = exec i s := by
  have hword : BitVec.ofNat 16 ((encode i).toNat % 2 ^ 16) = encode i := by
    rw [Nat.mod_eq_of_lt (encode i).isLt, BitVec.ofNat_toNat, BitVec.setWidth_eq]
  have hnext : s.withFetchWord 16 (encode i).toNat = s.setPort (.command (encode i) :: s.port) := by
    rw [State.withFetchWord, hword]
  rw [hnext]
  exact step_decoded (rest := s.port) rfl hs (decode_encode i)

/-- A command that faults records its word and leaves all else, but for BOARD after COMMIT_PRECONDITION (R222, R223). -/
theorem exec_fault_frame {i : Instr} (h : exec i s = .next t) (hchanged : t.faultCause ≠ s.faultCause) :
    (∃ c, t = s.setFault c (encode i)) ∨ t = (drawBoard s).setFault .commitPrecondition (encode i) := by
  obtain ⟨-, -, ⟨id, pos, rfl⟩ | ⟨id, pos, rfl⟩ | ⟨x, y, rfl⟩⟩ := (exec_changedByWriter h).fault (.inl hchanged)
  · by_cases hlegal : Statements.placementLegal (s.rom id) pos s.board
    · cases (exec_commit_of_legal hlegal).symm.trans h
      exact absurd rfl hchanged
    · exact .inr (Host.Outcome.next.inj (h.symm.trans (exec_commit_of_not_legal hlegal)))
  · by_cases hrange : Statements.drawingInRange (s.rom id) pos
    · cases (exec_draw_of_inRange hrange).symm.trans h
      exact absurd rfl hchanged
    · exact .inl ⟨_, Host.Outcome.next.inj (h.symm.trans (exec_draw_of_not_inRange hrange))⟩
  · obtain hx | hx := Nat.lt_or_ge x.toNat 20
    · cases (exec_fbSet_of_lt hx).symm.trans h
      exact absurd rfl hchanged
    · exact .inl ⟨_, Host.Outcome.next.inj (h.symm.trans (exec_fbSet_of_ge hx))⟩

/-- No command but GAME_CLEAR lowers SCORE: SWEEP adds to it, and no other writes it (R25). -/
theorem le_exec_score {i : Instr} (h : exec i s = .next t) (hi : i ≠ .gameClear) : s.score ≤ t.score := by
  by_cases hsweep : i = .sweep
  · subst hsweep
    cases h
    exact le_sweepLoop_score s.params.scoreWidth sweepTests 15 { board := s.board, score := s.score, lines := 0 }
  · by_contra hlt
    obtain hs | hc := (exec_changedByWriter h).score (by omega)
    · exact hsweep hs
    · exact hi hc

/-- Every command appends to the sink trace: FLUSH what it sends, any other nothing (R34). -/
theorem exec_trace_grows {i : Instr} (h : exec i s = .next t) : ∃ more, t.trace = s.trace ++ more := by
  by_cases hflush : i = .flush
  · subst hflush
    cases h
    rw [Safety.sendInit_eq]
    exact ⟨_, List.append_assoc _ _ _⟩
  · refine ⟨[], ?_⟩
    by_contra hchanged
    exact hflush ((exec_changedByWriter h).trace (by simpa using hchanged))

/-- STATUS reads 0x00 after reset (R37). -/
theorem status_resetBlock (s : State) : (resetBlock s).status = 0x00#8 := by
  simp [State.status, FaultCause.code]

/-- No step writes the parameters (R31, R253). -/
theorem step_params (h : step s = .next t) : t.params = s.params := by
  obtain ⟨-, rfl⟩ | ⟨act, rest, -, ⟨-, rfl⟩ | ⟨a, -, rfl⟩ | ⟨w, -, ⟨-, rfl⟩ | ⟨-, -, rfl⟩ | ⟨-, i, -, hexec⟩⟩⟩ :=
    step_cases h
  · rfl
  · rfl
  · rfl
  · rfl
  · rfl
  · exact (exec_changedByWriter hexec).params

end Sys2Proof.Machine
end

section
/-!
CERTIFICATE. Statements about every step: the dispatch, the precise fault, reset, and what is kept.
-/

namespace Sys2Proof.Certificates

open Sys2Proof.Machine

/-- Settles O11: the dispatch of a running block. -/
theorem stepRunsTheDecodedCommand : Obligations.StepRunsTheDecodedCommand :=
  ⟨fun _ _ _ _ => step_decoded, fun _ _ => step_withFetchWord_encode⟩

/-- Settles O15: the fault of a reserved word writes the fault registers alone, that of a command what its frame says. -/
theorem faultIsPreciseAndRecordsTheWord : Obligations.FaultIsPreciseAndRecordsTheWord := by
  intro s t w rest hp hs h hfault
  obtain ⟨hhalted, -⟩ | ⟨-, -, rfl⟩ | ⟨-, i, hi, hexec⟩ := step_command_cases hp h
  · exact absurd hs hhalted
  · exact ⟨rfl, rfl, rfl, fun _ => ⟨rfl, rfl⟩⟩
  · have hword := encode_of_decode hi
    obtain ⟨c, rfl⟩ | rfl := exec_fault_frame hexec fun heq => hfault (heq.trans hs)
    · refine ⟨hword, (halted_eq_true _).mpr hfault, ?_, fun _ => ⟨rfl, rfl⟩⟩
      apply State.ext_fields <;> simp [hword]
    · refine ⟨hword, (halted_eq_true _).mpr hfault, ?_, fun hother => absurd rfl hother⟩
      apply State.ext_fields <;> simp [hword]

/-- Settles O18, element by element of R251. -/
theorem resetGivesEveryElementItsValue : Obligations.ResetGivesEveryElementItsValue := by
  intro s rest hp
  refine ⟨_, step_reset hp, fun r hr => ?_, rfl, rfl, rfl, fun x hx => ?_, rfl, rfl, rfl, status_resetBlock _, rfl, rfl,
    rfl, rfl⟩
  · exact Vector.getElem_replicate hr
  · exact drawGrid_getElem 20 s.draws x hx

/-- Settles O19, element by element of R251. -/
theorem resetStateHasTheListedValues : Obligations.ResetStateHasTheListedValues := by
  refine ⟨fun r hr => ?_, rfl, rfl, rfl, fun x hx => ?_, rfl, rfl, rfl, rfl, rfl, rfl, rfl, rfl⟩
  · exact Vector.getElem_replicate hr
  · exact (drawGrid_getElem 20 0 x hx).trans (by rw [Nat.zero_add])

/-- Settles O48: reset aside, a step that lowers SCORE runs a command that does. -/
theorem scoreDecreasesOnlyByClearOrReset : Obligations.ScoreDecreasesOnlyByClearOrReset := by
  intro s t h hless
  obtain ⟨-, rfl⟩ | ⟨act, rest, hp, ⟨rfl, -⟩ | ⟨a, -, rfl⟩ | ⟨w, rfl, ⟨-, rfl⟩ | ⟨-, -, rfl⟩ | ⟨-, i, hi, hexec⟩⟩⟩ :=
    step_cases h
  · exact absurd hless (lt_irrefl _)
  · exact .inl ⟨rest, hp⟩
  · exact absurd hless (lt_irrefl _)
  · exact absurd hless (lt_irrefl _)
  · exact absurd hless (lt_irrefl _)
  · refine .inr ⟨w, rest, hp, ?_⟩
    by_contra hother
    have hle := le_exec_score hexec fun hclear => hother (hclear ▸ hi)
    exact hless.not_ge hle

/-- Settles O49. -/
theorem everyStepKeepsTheParameters : Obligations.EveryStepKeepsTheParameters := fun _ _ => step_params

/-- Settles O50: reset aside, only a command's events are appended. -/
theorem sinkTraceOnlyGrows : Obligations.SinkTraceOnlyGrows := by
  intro s t h
  obtain ⟨-, rfl⟩ | ⟨act, rest, hp, ⟨rfl, -⟩ | ⟨a, -, rfl⟩ | ⟨w, -, ⟨-, rfl⟩ | ⟨-, -, rfl⟩ | ⟨-, i, -, hexec⟩⟩⟩ :=
    step_cases h
  · exact .inr ⟨[], (List.append_nil _).symm⟩
  · exact .inl ⟨rest, hp⟩
  · exact .inr ⟨[], (List.append_nil _).symm⟩
  · exact .inr ⟨[], (List.append_nil _).symm⟩
  · exact .inr ⟨[], (List.append_nil _).symm⟩
  · exact .inr (exec_trace_grows (s := s.setPort rest) hexec)

/-- Settles O54: the reset state is a reset block with other free values, of which the invariant says nothing. -/
theorem resetMeetsTheInvariant : Obligations.ResetMeetsTheInvariant :=
  ((Safety.inv_resetBlock State.reset).setFb State.reset.fb).setDraws State.reset.draws

end Sys2Proof.Certificates
end

section
/-!
SUPPORT. The assembler's operands as numbers: a spelling `s.o` or `(c, r)` stands for the number of its fields, and fits
where they do (30_encoding.md section 5); rotation as the orientation's number (40_board_placement.md section 1).
-/

namespace Sys2Proof.Machine

theorem idOf_toNat (shape : BitVec 3) (orient : BitVec 2) :
    (idOf shape orient).toNat = 4 * shape.toNat + orient.toNat := by
  rw [idOf, BitVec.toNat_append, ← Nat.shiftLeft_add_eq_or_of_lt orient.isLt, Nat.shiftLeft_eq]
  omega

theorem posOf_toNat (row : BitVec 5) (col : BitVec 3) : (posOf row col).toNat = 8 * row.toNat + col.toNat := by
  rw [posOf, BitVec.toNat_append, ← Nat.shiftLeft_add_eq_or_of_lt col.isLt, Nat.shiftLeft_eq]
  omega

theorem idShape_toNat (id : BitVec 5) : (idShape id).toNat = id.toNat / 4 := by
  have := id.isLt
  simp only [idShape, BitVec.extractLsb'_toNat, Nat.shiftRight_eq_div_pow]
  omega

theorem idOrient_toNat (id : BitVec 5) : (idOrient id).toNat = id.toNat % 4 := by
  simp [idOrient, BitVec.extractLsb'_toNat]

theorem asmIdField_shapeOrient {s o : Nat} (ho : o ≤ 3) :
    asmIdField (.shapeOrient s o) = asmIdField (.num (4 * s + o)) := by
  apply BitVec.eq_of_toNat_eq
  simp only [asmIdField, idOf_toNat, BitVec.toNat_ofNat]
  omega

theorem asmPosField_colRow {c r : Nat} (hc : c ≤ 7) :
    asmPosField (.colRow c r) = asmPosField (.num (8 * r + c)) := by
  apply BitVec.eq_of_toNat_eq
  simp only [asmPosField, posOf_toNat, BitVec.toNat_ofNat]
  omega

/-- The lines that take an id and a position: they need both to fit and use them as numbers alone (R90, R92). -/
structure TakesIdAndPos (line : AsmId → AsmPos → AsmLine) : Prop where
  wellFormed : ∀ i p, (line i p).wellFormed = (i.wellFormed && p.wellFormed)
  expand : ∀ i i' p p', asmIdField i = asmIdField i' → asmPosField p = asmPosField p' →
    expandLine (line i p) = expandLine (line i' p')

theorem takesIdAndPos {line : AsmId → AsmPos → AsmLine} (h : line ∈ [AsmLine.check, .commit, .draw, .lock]) :
    TakesIdAndPos line := by
  simp only [List.mem_cons, List.not_mem_nil, or_false] at h
  obtain rfl | rfl | rfl | rfl := h <;> exact ⟨fun _ _ => rfl, fun _ _ _ _ hi hp => by simp only [expandLine, hi, hp]⟩

/-- A spelling `s.o` whose numbers fit is the number it stands for, and any other is refused (R91). -/
theorem TakesIdAndPos.assemble_shapeOrient {line : AsmId → AsmPos → AsmLine} (h : TakesIdAndPos line) (s o : Nat)
    (p : AsmPos) : assemble (line (.shapeOrient s o) p) =
      if s ≤ 7 ∧ o ≤ 3 then assemble (line (.num (4 * s + o)) p) else none := by
  unfold assemble
  rw [h.wellFormed, h.wellFormed]
  by_cases hfit : s ≤ 7 ∧ o ≤ 3
  · have hnum : 4 * s + o ≤ 31 := by omega
    rw [h.expand _ _ p p (asmIdField_shapeOrient hfit.2) rfl]
    simp [AsmId.wellFormed, hfit, hnum]
  · have hbad : (AsmId.shapeOrient s o).wellFormed = false := by simpa [AsmId.wellFormed] using hfit
    simp [hbad, hfit]

/-- A spelling `(c, r)` whose numbers fit is the number it stands for, and any other is refused (R91). -/
theorem TakesIdAndPos.assemble_colRow {line : AsmId → AsmPos → AsmLine} (h : TakesIdAndPos line) (i : AsmId)
    (c r : Nat) : assemble (line i (.colRow c r)) =
      if c ≤ 7 ∧ r ≤ 31 then assemble (line i (.num (8 * r + c))) else none := by
  unfold assemble
  rw [h.wellFormed, h.wellFormed]
  by_cases hfit : c ≤ 7 ∧ r ≤ 31
  · have hnum : 8 * r + c ≤ 255 := by omega
    rw [h.expand i i _ _ rfl (asmPosField_colRow hfit.1)]
    simp [AsmPos.wellFormed, hfit, hnum]
  · have hbad : (AsmPos.colRow c r).wellFormed = false := by simpa [AsmPos.wellFormed] using hfit
    simp [hbad, hfit]

theorem assemble_preview_shapeOrient (s o : Nat) : assemble (.preview (.shapeOrient s o)) =
    if s ≤ 7 ∧ o ≤ 3 then assemble (.preview (.num (4 * s + o))) else none := by
  by_cases hfit : s ≤ 7 ∧ o ≤ 3
  · have hnum : 4 * s + o ≤ 31 := by omega
    simp [assemble, AsmLine.wellFormed, AsmId.wellFormed, expandLine, asmIdField_shapeOrient hfit.2, hfit, hnum]
  · have hbad : (AsmId.shapeOrient s o).wellFormed = false := by simpa [AsmId.wellFormed] using hfit
    simp [assemble, AsmLine.wellFormed, hbad, hfit]

/-- A line of an id and a position written as numbers assembles exactly when both fit (R90). -/
theorem TakesIdAndPos.assemble_num {line : AsmId → AsmPos → AsmLine} (h : TakesIdAndPos line) (i p : Nat) :
    assemble (line (.num i) (.num p)) =
      if i ≤ 31 ∧ p ≤ 255 then some (expandLine (line (.num i) (.num p))) else none := by
  unfold assemble
  rw [h.wellFormed]
  simp [AsmId.wellFormed, AsmPos.wellFormed]

theorem assemble_preview_num (i : Nat) : assemble (.preview (.num i)) =
    if i ≤ 31 then some [.draw (BitVec.ofNat 5 i) 0x8B#8] else none := by
  simp [assemble, AsmLine.wellFormed, AsmId.wellFormed, expandLine, previewPiece, Config.previewPos, asmIdField]

theorem assemble_fbSet (x y : Nat) : assemble (.fbSet x y) =
    if x ≤ 31 ∧ y ≤ 7 then some [.fbSet (BitVec.ofNat 5 x) (BitVec.ofNat 3 y)] else none := by
  simp [assemble, AsmLine.wellFormed, expandLine]

theorem assemble_fbFill (x : Nat) : assemble (.fbFill x) =
    if x ≤ 31 then some ([0, 1, 2, 3, 4, 5, 6, 7].map fun y => .fbSet (BitVec.ofNat 5 x) y) else none := by
  simp only [assemble, AsmLine.wellFormed, decide_eq_true_eq]
  rfl

end Sys2Proof.Machine
end

section
/-!
CERTIFICATE. The statements of 30_encoding.md section 5 about the assembler, and the rotation of 40_board_placement.md
section 1.
-/

namespace Sys2Proof.Certificates

open Sys2Proof.Machine

/-- Settles O7, line by line. -/
theorem assemblerRefusesOperandsThatDoNotFit : Obligations.AssemblerRefusesOperandsThatDoNotFit := by
  refine ⟨rfl, rfl, rfl, rfl, rfl, rfl, rfl, fun i p => ?_, assemble_preview_num, assemble_fbSet, assemble_fbFill⟩
  have hline {line} (h : line ∈ [AsmLine.check, .commit, .draw, .lock]) := (takesIdAndPos h).assemble_num i p
  exact ⟨hline (by simp), hline (by simp), hline (by simp), hline (by simp)⟩

/-- Settles O8: a spelling is its number where its fields fit, in every line that takes one. -/
theorem alternativeSpellingsAssembleAlike : Obligations.AlternativeSpellingsAssembleAlike :=
  ⟨fun _ h => ⟨(takesIdAndPos h).assemble_shapeOrient, (takesIdAndPos h).assemble_colRow⟩, assemble_preview_shapeOrient⟩

/-- Settles O9: the numbers of a field's values fit the field. -/
theorem pseudoInstructionsExpand : Obligations.PseudoInstructionsExpand := by
  refine ⟨fun id pos => ⟨?_, ?_⟩, rfl, fun x => ?_⟩
  · have hfit : id.toNat ≤ 31 ∧ pos.toNat ≤ 255 := by omega
    rw [(takesIdAndPos (line := .lock) (by simp)).assemble_num, if_pos hfit]
    simp [expandLine, lockPiece, asmIdField, asmPosField]
  · have hfit : id.toNat ≤ 31 := by omega
    rw [assemble_preview_num, if_pos hfit, BitVec.ofNat_toNat, BitVec.setWidth_eq]
  · have hfit : x.toNat ≤ 31 := by omega
    rw [assemble_fbFill, if_pos hfit, BitVec.ofNat_toNat, BitVec.setWidth_eq]
    rfl

/-- Settles O10: a rotated id has the same shape, and an orientation one or three further modulo 4. -/
theorem rotationTurnsTheOrientationAlone : Obligations.RotationTurnsTheOrientationAlone := by
  intro id
  simp only [rotNext, rotPrev, idOf_toNat, idShape_toNat, BitVec.toNat_add, idOrient_toNat]
  exact ⟨rfl, rfl⟩

end Sys2Proof.Certificates
end

section
/-!
SUPPORT. The drawing commands as light over a frame: each lights pixels that do not depend on the frame, or is out of
range whatever the frame (42_renderer.md section 2).
-/

namespace Sys2Proof.Machine

open Sys2Proof.Safety

variable {s t : State} {i : Instr}

/-- Whatever the frame, the command lights the pixels `lit` in it and does nothing else. -/
def LightsOnly (i : Instr) (s : State) (lit : Nat → Nat → Bool) : Prop :=
  ∀ f, ∃ g, exec i (s.setFb f) = .next (s.setFb g) ∧
    ∀ x y, x < 20 → y < 8 → gridBit g x y = (gridBit f x y || lit x y)

/-- Whatever is in the frame and the fault registers, the command raises DRAW_RANGE with its word. -/
def RaisesDrawRange (i : Instr) (s : State) : Prop :=
  ∀ t : State, t.params = s.params → exec i t = .next (t.setFault .drawRange (encode i))

/-- Pixel `(x, y)` of a blitted frame is its own or cell `(y, x)` of the board (R164). -/
theorem gridBit_blit (b : Board) (f : FrameBuffer) {x : Nat} (hx : x < 20) (y : Nat) :
    gridBit (blit b f) x y = (gridBit f x y || gridBit b x y) := by
  rw [gridBit_of_lt _ hx, gridBit_of_lt _ hx, blit_getElem b f hx]
  obtain hb | hb := Nat.lt_or_ge x 16
  · rw [dif_pos hb, BitVec.getLsbD_or, gridBit_of_lt _ hb]
  · rw [dif_neg hb.not_gt, gridBit_of_ge _ hb, Bool.or_false]

/-- Over a dark frame the blit shows the board (R166). -/
theorem gridBit_blit_dark (b : Board) {x : Nat} (hx : x < 20) (y : Nat) :
    gridBit (blit b (Vector.replicate 20 0x00#8)) x y = gridBit b x y := by
  rw [gridBit_blit b _ hx, gridBit_of_lt _ hx, Vector.getElem_replicate, BitVec.getLsbD_zero, Bool.false_or]

theorem fbBlit_lightsOnly (s : State) : LightsOnly .fbBlit s (gridBit s.board) :=
  fun f => ⟨blit s.board f, rfl, fun _ y hx _ => gridBit_blit s.board f hx y⟩

theorem draw_lightsOnly {id : BitVec 5} {pos : BitVec 8} (h : Statements.drawingInRange (s.rom id) pos) :
    LightsOnly (.draw id pos) s fun x y => decide ((y, x) ∈ cells (s.rom id) pos) := by
  intro f
  refine ⟨lightCells (cells (s.rom id) pos) f, exec_draw_of_inRange (s := s.setFb f) h, fun x y hx _ => ?_⟩
  have hcol := drawInRange_iff.mp (drawInRange_iff_drawingInRange.mpr h)
  have hlight := gridBit_lightCells (cells (s.rom id) pos) (fun cell hcell => (hcol cell.1 cell.2 hcell).2) f x y
  simpa [hx] using hlight

theorem fbSet_lightsOnly {x : BitVec 5} (hx : x.toNat < 20) (y : BitVec 3) :
    LightsOnly (.fbSet x y) s fun i b => decide (i = x.toNat ∧ b = y.toNat) := by
  intro f
  refine ⟨_, exec_fbSet_of_lt (s := s.setFb f) hx, fun i b _ _ => ?_⟩
  have hlight := gridBit_lightBit f y.isLt (i := x.toNat) i b
  simpa [hx] using hlight

theorem draw_raisesDrawRange {id : BitVec 5} {pos : BitVec 8} (h : ¬ Statements.drawingInRange (s.rom id) pos) :
    RaisesDrawRange (.draw id pos) s := by
  intro t ht
  refine exec_draw_of_not_inRange ?_
  rwa [State.rom, ht]

/-- A drawing command lights pixels or is out of range (R120, R163, R164). -/
theorem isDrawing_cases (h : isDrawing i = true) (s : State) : (∃ lit, LightsOnly i s lit) ∨ RaisesDrawRange i s := by
  cases i with
  | nop | gameClear | fbClear | sweep | flush | check id pos | commit id pos => simp [isDrawing] at h
  | fbBlit => exact .inl ⟨_, fbBlit_lightsOnly s⟩
  | draw id pos =>
    by_cases hrange : Statements.drawingInRange (s.rom id) pos
    · exact .inl ⟨_, draw_lightsOnly hrange⟩
    · exact .inr (draw_raisesDrawRange hrange)
  | fbSet x y =>
    obtain hx | hx := Nat.lt_or_ge x.toNat 20
    · exact .inl ⟨_, fbSet_lightsOnly hx y⟩
    · exact .inr fun _ _ => exec_fbSet_of_ge hx

/-- No command takes a recorded fault away (R226). -/
theorem faultCause_of_exec_noFault (h : exec i s = .next t) (ht : t.faultCause = .noFault) :
    s.faultCause = .noFault := by
  by_contra hs
  exact ((exec_changedByWriter h).fault (.inl (by rw [ht]; exact Ne.symm hs))).1 ht

/-- A drawing command that does not fault only lights pixels. -/
theorem lightsOnly_of_noFault (hi : isDrawing i = true) (h : exec i s = .next t) (ht : t.faultCause = .noFault) :
    ∃ lit, LightsOnly i s lit := by
  obtain hlit | hrange := isDrawing_cases hi s
  · exact hlit
  · rw [hrange s rfl] at h
    cases h
    cases ht

/-- Lighting the same pixels again changes nothing more. -/
theorem LightsOnly.repeated {lit : Nat → Nat → Bool} (hi : LightsOnly i s lit) :
    ∃ t, exec i s = .next t ∧ exec i t = .next t := by
  obtain ⟨g, hg, hlit⟩ := hi s.fb
  obtain ⟨g', hg', hlit'⟩ := hi g
  have hsame : g' = g := grid_ext fun x y hx hy => by
    rw [hlit' x y hx hy, hlit x y hx hy, Bool.or_assoc, Bool.or_self]
  exact ⟨s.setFb g, hg, hsame ▸ hg'⟩

/-- A drawing command that faults raises the same fault again. -/
theorem RaisesDrawRange.repeated (hi : RaisesDrawRange i s) : ∃ t, exec i s = .next t ∧ exec i t = .next t :=
  ⟨_, hi s rfl, hi _ rfl⟩

/-- Two commands that only light pixels commute (R165). -/
theorem LightsOnly.commute {j : Instr} {lit lit' : Nat → Nat → Bool} (hi : LightsOnly i s lit)
    (hj : LightsOnly j s lit') :
    ∃ f g h, exec i s = .next (s.setFb f) ∧ exec j (s.setFb f) = .next (s.setFb h) ∧
      exec j s = .next (s.setFb g) ∧ exec i (s.setFb g) = .next (s.setFb h) := by
  obtain ⟨f, hf, hflit⟩ := hi s.fb
  obtain ⟨g, hg, hglit⟩ := hj s.fb
  obtain ⟨h, hh, hhlit⟩ := hj f
  obtain ⟨h', hh', hhlit'⟩ := hi g
  have hsame : h' = h := grid_ext fun x y hx hy => by
    rw [hhlit' x y hx hy, hglit x y hx hy, hhlit x y hx hy, hflit x y hx hy, Bool.or_right_comm]
  exact ⟨f, g, h, hf, hh, hg, hsame ▸ hh'⟩

end Sys2Proof.Machine
end

section
/-!
SUPPORT. Runs over a list of host actions, taken one a step.
-/

namespace Sys2Proof.Machine

variable {s t : State}

/-- A longer run is a step and the rest of the run. -/
theorem run_succ_cases {k : Nat} (h : core.run (k + 1) s = .next t) :
    ∃ a, step s = .next a ∧ core.run k a = .next t := by
  cases hp : s.port with
  | nil => exact ⟨s, step_idle hp, (run_succ (step_idle hp) k) ▸ h⟩
  | cons act rest =>
    obtain ⟨a, ha⟩ := takeAction_answers act (s.setPort rest)
    have hstep := (step_cons hp).trans ha
    exact ⟨a, hstep, (run_succ hstep k) ▸ h⟩

/-- An action is taken from the port, and leaves the rest of it. -/
theorem step_port {act : HostAction} {rest : List HostAction} (hp : s.port = act :: rest) (h : step s = .next t) :
    t.port = rest := by
  obtain ⟨hnil, -⟩ | ⟨act', rest', hp', ⟨-, rfl⟩ | ⟨a, -, rfl⟩ | ⟨w, -, ⟨-, rfl⟩ | ⟨-, -, rfl⟩ | ⟨-, i, -, hexec⟩⟩⟩ :=
    step_cases h
  · simp [hp] at hnil
  all_goals obtain ⟨rfl, rfl⟩ : act' = act ∧ rest' = rest := by simpa [hp, eq_comm] using hp'
  · rfl
  · rfl
  · rfl
  · rfl
  · exact (exec_changedByWriter hexec).port

end Sys2Proof.Machine
end

section
/-!
SUPPORT. What leaves a CHECK's answer good: every action but a reset, COMMIT, SWEEP and GAME_CLEAR keeps BOARD
(70_reset_and_hazards.md section 3).
-/

namespace Sys2Proof.Machine

open Sys2Proof.Safety

variable {s t : State}

/-- An action that keeps a CHECK fresh keeps BOARD (R24, R260). -/
theorem step_board_of_keepsCheckFresh {act : HostAction} {rest : List HostAction} (hp : s.port = act :: rest)
    (hact : keepsCheckFresh act = true) (h : step s = .next t) : t.board = s.board := by
  cases act with
  | reset => cases hact
  | observe a =>
    rw [step_observe hp] at h
    cases h
    rfl
  | command w =>
    by_contra hchanged
    obtain hw | hw | ⟨id, pos, hw⟩ := Certificates.onlyThreeCommandsWriteBoard s t w rest hp h hchanged
    all_goals simp [keepsCheckFresh, hw] at hact

/-- A run of such actions leaves BOARD and SHAPE_ROM as they were, and what comes after them next. -/
theorem run_keepsCheckFresh {acts rest : List HostAction} (hp : s.port = acts ++ rest)
    (hacts : ∀ act ∈ acts, keepsCheckFresh act = true) (h : core.run acts.length s = .next t) :
    t.board = s.board ∧ t.params = s.params ∧ t.port = rest := by
  induction acts generalizing s with
  | nil =>
    cases h
    exact ⟨rfl, rfl, hp⟩
  | cons act acts ih =>
    obtain ⟨a, hstep, hrun⟩ := run_succ_cases h
    obtain ⟨hboard, hparams, hport⟩ := ih (step_port hp hstep) (fun x hx => hacts x (.tail act hx)) hrun
    have hfresh := step_board_of_keepsCheckFresh hp (hacts act (.head acts)) hstep
    exact ⟨hboard.trans hfresh, hparams.trans (step_params hstep), hport⟩

end Sys2Proof.Machine
end

section
/-!
SUPPORT. Machines that differ in FB alone: an action that shows nothing of FB does the same to both
(70_reset_and_hazards.md section 2).
-/

namespace Sys2Proof.Machine

open Sys2Proof.Safety

/-- On a machine with another frame, `f` leaves the same machine but for the frame. -/
def BlindToFb (f : State → Host.Outcome State Fault Refusal) : Prop :=
  ∀ s t g, f s = .next t → ∃ g', f (s.setFb g) = .next (t.setFb g')

/-- A drawing command lights the same pixels in any frame, or faults under any. -/
theorem exec_blindToFb_of_isDrawing {i : Instr} (hi : isDrawing i = true) : BlindToFb (exec i) := by
  intro s t g h
  obtain ⟨lit, hlit⟩ | hrange := isDrawing_cases hi s
  · obtain ⟨f, hf, -⟩ := hlit s.fb
    obtain ⟨g', hg', -⟩ := hlit g
    cases hf.symm.trans h
    exact ⟨g', hg'⟩
  · cases (hrange s rfl).symm.trans h
    exact ⟨g, hrange (s.setFb g) rfl⟩

theorem exec_blindToFb {i : Instr} (hi : i ≠ .flush) : BlindToFb (exec i) := by
  cases i with
  | flush => exact absurd rfl hi
  | fbBlit | draw id pos | fbSet x y => exact exec_blindToFb_of_isDrawing rfl
  | nop | gameClear | sweep | check id pos => intro s t g h; cases h; exact ⟨g, rfl⟩
  | fbClear => intro s t g h; cases h; exact ⟨_, rfl⟩
  | commit id pos =>
    intro s t g h
    by_cases hlegal : Statements.placementLegal (s.rom id) pos s.board
    · rw [exec_commit_of_legal hlegal] at h
      cases h
      exact ⟨g, exec_commit_of_legal (s := s.setFb g) hlegal⟩
    · rw [exec_commit_of_not_legal hlegal] at h
      cases h
      exact ⟨g, exec_commit_of_not_legal (s := s.setFb g) hlegal⟩

/-- A read outside FB's addresses answers the same under any frame (R33). -/
theorem observe_setFb {s : State} {a : BitVec 6} (ha : hidesFrame (.observe a) = true) (g : FrameBuffer) :
    observe (s.setFb g) a = observe s a := by
  simp only [hidesFrame, Bool.or_eq_true, decide_eq_true_eq] at ha
  by_cases hboard : a.toNat < 0x10
  · rw [observe_board hboard, observe_board hboard]
    rfl
  · have hfb : ¬ a.toNat < 0x24 := by omega
    simp only [observe, dif_neg hboard, dif_neg hfb]
    rfl

theorem takeAction_blindToFb {act : HostAction} (hact : hidesFrame act = true) : BlindToFb (takeAction act) := by
  intro s t g h
  cases act with
  | reset => cases hact
  | observe a =>
    cases h
    refine ⟨g, ?_⟩
    simp only [takeAction, observe_setFb hact g]
    rfl
  | command w =>
    change dispatchWord w s = .next t at h
    change ∃ g', dispatchWord w (s.setFb g) = .next (t.setFb g')
    by_cases hf : s.faultCause = .noFault
    · rw [dispatchWord_running hf] at h
      rw [dispatchWord_running (s := s.setFb g) hf]
      cases hd : decode w with
      | error e => rw [hd] at h; cases h; exact ⟨g, rfl⟩
      | ok i =>
        rw [hd] at h
        refine exec_blindToFb (fun hflush => ?_) s t g h
        simp [hidesFrame, hd, hflush] at hact
    · rw [dispatchWord_halted hf] at h
      cases h
      exact ⟨g, dispatchWord_halted (s := s.setFb g) hf⟩

theorem step_blindToFb {s t : State} {act : HostAction} {rest : List HostAction} (hp : s.port = act :: rest)
    (hact : hidesFrame act = true) (h : step s = .next t) (g : FrameBuffer) :
    ∃ g', step (s.setFb g) = .next (t.setFb g') := by
  rw [step_cons hp] at h
  rw [step_cons (s := s.setFb g) hp]
  exact takeAction_blindToFb hact (s.setPort rest) t g h

/-- FB_CLEAR of a running block leaves the same machine whatever the frame was (R162). -/
theorem step_fbClear_setFb {s t : State} {rest : List HostAction} (hp : s.port = .command (encode .fbClear) :: rest)
    (h : step s = .next t) (ht : t.faultCause = .noFault) (g : FrameBuffer) : step (s.setFb g) = .next t := by
  by_cases hs : s.faultCause = .noFault
  · rw [step_decoded (s := s.setFb g) hp hs (decode_encode _)]
    rw [step_decoded hp hs (decode_encode _)] at h
    exact h
  · rw [step_command_of_halted hs hp] at h
    cases h
    exact absurd ht hs

/-- Through such actions and an FB_CLEAR nothing of the first frame is left, if no fault is recorded (R254). -/
theorem run_fbClear_setFb {s t : State} {acts rest : List HostAction}
    (hp : s.port = acts ++ .command (encode .fbClear) :: rest) (hacts : ∀ act ∈ acts, hidesFrame act = true)
    (h : core.run (acts.length + 1) s = .next t) (ht : t.faultCause = .noFault) (g : FrameBuffer) :
    core.run (acts.length + 1) (s.setFb g) = .next t := by
  induction acts generalizing s g with
  | nil =>
    obtain ⟨a, hstep, hrun⟩ := run_succ_cases h
    cases hrun
    exact run_succ (step_fbClear_setFb hp hstep ht g) 0
  | cons act acts ih =>
    obtain ⟨a, hstep, hrun⟩ := run_succ_cases h
    obtain ⟨g', hstep'⟩ := step_blindToFb hp (hacts act (.head acts)) hstep g
    rw [List.length_cons, run_succ hstep']
    exact ih (step_port hp hstep) (fun x hx => hacts x (.tail act hx)) hrun g'

end Sys2Proof.Machine
end

section
/-!
CERTIFICATE. Derived statements about drawing and about runs: R56, R165, R166, R254, R260.
-/

namespace Sys2Proof.Certificates

open Sys2Proof.Machine

/-- Settles O41: over a dark frame the blit is the board. -/
theorem clearedFrameShowsTheBoard : Obligations.ClearedFrameShowsTheBoard := by
  intro s
  refine ⟨_, _, exec_fbClear, exec_fbBlit, fun r c hr _ => ?_, fun x c hlow hx _ => ?_⟩
  · exact gridBit_blit_dark s.board (by omega) c
  · exact (gridBit_blit_dark s.board hx c).trans (gridBit_of_ge _ hlow c)

/-- Settles O42: commands that only light pixels, in either order, light the same. -/
theorem drawingCommandsCommute : Obligations.DrawingCommandsCommute := by
  intro s a b ab ba i j hi hj _ ha hab hb hba hfault
  obtain ⟨lit, hlit⟩ := lightsOnly_of_noFault hi ha (faultCause_of_exec_noFault hab hfault)
  obtain ⟨lit', hlit'⟩ := lightsOnly_of_noFault hj hab hfault
  obtain ⟨f, hf, -⟩ := hlit s.fb
  cases hf.symm.trans ha
  obtain ⟨f, g, h, hi', hij, hj', hji⟩ := hlit.commute (show LightsOnly j s lit' from hlit')
  cases hi'.symm.trans ha
  cases hj'.symm.trans hb
  exact Host.Outcome.next.inj ((hab.symm.trans hij).trans (hji.symm.trans hba))

/-- Settles O51: three commands write constants, CHECK does not write what it reads, and a drawing command repeats its
light or its fault. -/
theorem sevenCommandsAreIdempotent : Obligations.SevenCommandsAreIdempotent := by
  intro s i hsweep hflush hcommit
  have hdrawing (h : Safety.isDrawing i = true) : ∃ t, exec i s = .next t ∧ exec i t = .next t := by
    obtain ⟨_, hlit⟩ | hrange := isDrawing_cases h s
    · exact hlit.repeated
    · exact hrange.repeated
  cases i with
  | nop | gameClear | fbClear | check id pos => exact ⟨_, rfl, rfl⟩
  | fbBlit | draw id pos | fbSet x y => exact hdrawing rfl
  | sweep => exact absurd rfl hsweep
  | flush => exact absurd rfl hflush
  | commit id pos => exact absurd rfl (hcommit id pos)

/-- Settles O27: the run between keeps BOARD and the ROM, and with them the legality that CHECK answered. -/
theorem checkedCommitDoesNotFault : Obligations.CheckedCommitDoesNotFault := by
  intro s a t u id pos between rest hs hp hfresh hcheck hok hrun ht hcommit
  rw [step_decoded hp hs (decode_encode _), exec_check] at hcheck
  cases hcheck
  obtain ⟨hboard, hparams, hport⟩ := run_keepsCheckFresh rfl hfresh hrun
  have hlegal : Statements.placementLegal (t.rom id) pos t.board := by
    rw [hboard, State.rom, hparams]
    exact legal_iff_placementLegal.mp hok
  rw [step_decoded hport ht (decode_encode _), exec_commit_of_legal (s := t.setPort rest) hlegal] at hcommit
  cases hcommit
  exact ht

/-- Settles O43: the run does to either machine what it does to the other, and FB_CLEAR makes their frames one. -/
theorem frameClearForgetsTheOldFrame : Obligations.FrameClearForgetsTheOldFrame := by
  intro s t s' t' acts rest hagree hp hacts hs ht hfault
  have hsame := run_fbClear_setFb hp hacts hs hfault t.fb
  rw [← hagree] at hsame
  exact Host.Outcome.next.inj (hsame.symm.trans ht)

end Sys2Proof.Certificates
end
